-- ==== Sys2Proof/Word.lean ====
section
/-! DEFINITION. The machine's word types (spec 00_scope.md R11: every value is unsigned, bits count from 0 at the least significant). -/

namespace Sys2Proof

/-- A byte: 8 bits, unsigned (R11). -/
abbrev Byte := BitVec 8

/-- A length, a byte count or a symbol index: `LEN_W = 16` bits (R9, R28). -/
abbrev Half := BitVec 16

/-- A register word of the host bus, or a host-memory address (`AW = 32`) (R9, R23, R29). -/
abbrev Word := BitVec 32

end Sys2Proof
end

