-- ==== Sys2Proof/Config.lean ====
section
/-! DEFINITION. What an implementation fixes and the spec leaves open (spec 00_scope.md R7 to R10), and the free values.

The parameters are ONE opaque constant, `Config.hardware`: nothing in Lean can evaluate it or prove a value of it. State
carries the parameter instance it was launched with, so that a statement about every state is a statement about every
admissible instance. -/

namespace Sys2Proof

/-- RadioCommand: the transceiver's eight commands (40_port.md R91). The block sends only `goIdle`, `flushTx`, `startTx` and
`nop` (R78). -/
inductive RadioCommand where
  | resetCore
  | flushTx
  | goIdle
  | startTx
  | nop
  | sleep
  | xoff
  | wor
  deriving DecidableEq, Repr, Inhabited

/-- STROBE_CODE: the byte the port carries for each command (R9, R91). -/
structure StrobeCodes where
  resetCore : Byte
  flushTx : Byte
  goIdle : Byte
  startTx : Byte
  nop : Byte
  sleep : Byte
  xoff : Byte
  wor : Byte
  deriving DecidableEq, Repr

/-- `STROBE_CODE(c)` (R91). -/
def StrobeCodes.code (t : StrobeCodes) : RadioCommand → Byte
  | .resetCore => t.resetCore
  | .flushTx => t.flushTx
  | .goIdle => t.goIdle
  | .startTx => t.startTx
  | .nop => t.nop
  | .sleep => t.sleep
  | .xoff => t.xoff
  | .wor => t.wor

/-- A parameter instance, before it is checked: the table of R9. Durations are numbers of block steps (log 13); HostAdmit is a
list of (first address, number of bytes) ranges (log 8). -/
structure RawParams where
  fecMasks : Vector Byte 8
  strobeCode : StrobeCodes
  idleMask : Byte
  settleMask : Byte
  freeMask : Byte
  endStatus : Byte
  refillWait : Nat
  jitterMin : Nat
  jitterMax : Nat
  debugSpacing : Bool
  fixedSpacing : Nat
  regBase : Nat
  hostAdmit : List (Nat × Nat)
  deriving DecidableEq, Repr

/-- `BURST_MAX = 64`, the bytes of the longest burst (R7). -/
def Config.burstMax : Nat := 64

/-- `FIFO_CAP = 64`, the bytes of the transceiver's TX FIFO (R7). -/
def Config.fifoCap : Nat := 64

/-- `PRN_LENGTH = 64`, the bytes of a PRN pattern (R7). -/
def Config.prnLength : Nat := 64

/-- `SYMBOL_CHIPS = 7 + 8 + 8 + 7` (R8). -/
def Config.symbolChips : Nat := 30

/-- `SYMBOL_BYTES = SYMBOL_CHIPS × PRN_LENGTH` (R8). -/
def Config.symbolBytes : Nat := 1920

/-- The host address space has `2 ^ AW` bytes, `AW = 32` (R9, R50). -/
def Config.hostSpace : Nat := 2 ^ 32

/-- STROBE_CODE is injective on the four commands the block sends: R91's requirement on the hardware's own codes. Launch does
not check it (log 6: R190 refuses for R10 alone). -/
def StrobeCodes.distinct (t : StrobeCodes) : Bool :=
  t.goIdle != t.flushTx && t.goIdle != t.startTx && t.goIdle != t.nop
    && t.flushTx != t.startTx && t.flushTx != t.nop && t.startTx != t.nop

/-- An instance a model admits: `FREE_MASK ≤ 64`, and nothing else is asked (R10, R190). -/
def RawParams.admissible (p : RawParams) : Bool := decide (p.freeMask.toNat ≤ Config.burstMax)

/-- An admissible parameter instance (R10): an instance that breaks R10 cannot be put into a state, and
`Sys2Proof.Machine.State.launch` refuses it by name. The field values below only show that an admissible instance exists, so
that `Config.hardware` may be declared; no definition or statement uses them. -/
structure Params extends RawParams where
  fecMasks := Vector.replicate 8 0
  strobeCode := ⟨0, 1, 2, 3, 4, 5, 6, 7⟩
  idleMask := 0
  settleMask := 0
  freeMask := 0
  endStatus := 0
  refillWait := 0
  jitterMin := 0
  jitterMax := 0
  debugSpacing := false
  fixedSpacing := 0
  regBase := 0
  hostAdmit := []
  ok : toRawParams.admissible = true := by decide
  deriving DecidableEq, Repr, Inhabited

/-- What the hardware's own instance is known to keep: R10, and R91. -/
structure HardwareParams extends Params where
  distinct : toRawParams.strobeCode.distinct = true := by decide
  deriving DecidableEq, Repr, Inhabited

/-- The hardware's own parameter instance: OPEN but for R10 and R91 (R9, D5, D8, D10 to D15). -/
opaque Config.hardware : HardwareParams

/-- That instance, as a state carries it. -/
def Config.params : Params := Config.hardware.toParams

/-- Free value: the transceiver side's answer to a strobe at the n-th draw; `none` is "not accepted yet", `some b` is
"accepted, status byte b" (R92, R102). -/
opaque Config.strobeAnswer : Nat → Option Byte

/-- Free value: whether the transceiver side is ready for the next burst byte at the n-th draw (R94, R102). -/
opaque Config.byteReady : Nat → Bool

/-- Free value: picks the jitter duration within its bounds at the n-th draw (R103, R169). -/
opaque Config.jitterPick : Nat → Nat

/-- Free value: picks between the old and the new byte of a raced read at the n-th draw (R54). -/
opaque Config.racePick : Nat → Nat

/-- Free value: what a host read of an unwritten PRN byte returns at the n-th draw (R57). -/
opaque Config.unwrittenByte : Nat → Byte

/-- Free value: how much of a port transaction cut by reset the transceiver received, at the n-th draw (R210, I11). -/
opaque Config.cutPick : Nat → Nat

/-- What a byte of host memory that is not listed reads as. DESIGN CHOICE, unsafe, log 7: the spec gives host memory no
contents; any contents of the 2^32 bytes can be listed. -/
def Config.unlistedByte : Byte := 0

end Sys2Proof
end

