-- ==== Sys2Proof/Syntax.lean ====
section
/-! DEFINITION. The block's operations: its instruction set (spec 30_encoding.md R71, opcode_table.json). -/

namespace Sys2Proof

/-- The eight operations of the opcode map. None has an operand in its word: operands are the latches copied from the
argument registers at dispatch (R70, R72). -/
inductive Instr where
  /-- FEC_ENC, the source's `fecEncode(byte)` (R143). -/
  | fecEnc
  /-- FLUSH_IDLE, the source's `FlushIdle` (R114). -/
  | flushIdle
  /-- RAW_TX, the buffer-transmit algorithm (R115). -/
  | rawTx
  /-- RAW_CONT, `continueRawTransmit` with caller data (R116). -/
  | rawCont
  /-- RAW_ZERO, `continueRawTransmit` with zero filler (R117). -/
  | rawZero
  /-- RAW_END, `endRawTransmit` (R118). -/
  | rawEnd
  /-- TX_BYTE, `transmitByte(byte)` (R164). -/
  | txByte
  /-- TX_BUF, `transmit(bytes[])` (R167). -/
  | txBuf
  deriving DecidableEq, Repr

end Sys2Proof
end

