-- ==== Sys2Proof/WellFormed.lean ====
section
/-! DEFINITION. What is well formed: an operation, a CMD word, a host register access, a parameter instance. -/

namespace Sys2Proof

/-- Every operation is well formed: it has no operand in its word that could be out of range (spec 30_encoding.md R70, R72). -/
def Instr.wellFormed : Instr → Bool
  | .fecEnc => true
  | .flushIdle => true
  | .rawTx => true
  | .rawCont => true
  | .rawZero => true
  | .rawEnd => true
  | .txByte => true
  | .txBuf => true

/-- The opcodes of the map (R71). -/
def legalOpcodes : List Byte := [0x01, 0x10, 0x11, 0x12, 0x13, 0x14, 0x20, 0x21]

/-- A CMD word names an operation: its bits [7:0] are in the opcode map (R71, R74). -/
def CmdWord.wellFormed (w : Word) : Bool := legalOpcodes.contains (w.extractLsb' 0 8)

/-- A host access the register window answers: 4 bytes wide and naturally aligned (20_memory.md R61). DESIGN CHOICE, unsafe,
log 34: alignment is judged on the offset from REG_BASE, since 00_scope.md R9 gives REG_BASE no alignment; for a REG_BASE that
is a multiple of 4 that is the alignment of the bus address. -/
def HostAccess.wellFormed (bytes off : Nat) : Bool := bytes == 4 && off % 4 == 0

/-- A parameter instance a model admits (00_scope.md R10). -/
def RawParams.wellFormed (p : RawParams) : Bool := p.admissible

end Sys2Proof
end

