-- ==== Sys2Proof/Decode.lean ====
section
/-! DEFINITION. The decoder of CMD words and its inverse (spec 30_encoding.md R70, R71, R74, R75, R77; opcode_table.json). -/

namespace Sys2Proof

/-- Why the decoder refuses a word. -/
inductive Reject where
  /-- The opcode is not in the map: one of the 248 illegal values (R74). -/
  | illegalOpcode (opc : Byte)
  deriving DecidableEq, Repr

/-- OPC, bits [7:0] of a CMD word (R70). -/
def opcodeOf (w : Word) : Byte := w.extractLsb' 0 8

/-- The opcode of each operation (R71). -/
def Instr.opcode : Instr → Byte
  | .fecEnc => 0x01
  | .flushIdle => 0x10
  | .rawTx => 0x11
  | .rawCont => 0x12
  | .rawZero => 0x13
  | .rawEnd => 0x14
  | .txByte => 0x20
  | .txBuf => 0x21

/-- The opcode map (R71), one row per operation. -/
def opcodeMap : List (Byte × Instr) :=
  [(0x01, .fecEnc), (0x10, .flushIdle), (0x11, .rawTx), (0x12, .rawCont),
   (0x13, .rawZero), (0x14, .rawEnd), (0x20, .txByte), (0x21, .txBuf)]

/-- The operation an opcode names, or the refusal by name (R74). -/
def decodeOpcode (opc : Byte) : Except Reject Instr :=
  match opcodeMap.find? (fun row => row.1 == opc) with
  | some row => .ok row.2
  | none => .error (.illegalOpcode opc)

/-- The decoder: total on all 2^32 words, by OPC alone; bits [31:8] are ignored (R75, R77). -/
def decode (w : Word) : Except Reject Instr := decodeOpcode (opcodeOf w)

/-- The encoder: the CMD word of an operation with `hi` in the ignored bits [31:8] (R70). -/
def encode (hi : BitVec 24) (i : Instr) : Word := hi ++ i.opcode

/-- The host's question about one row of the opcode table: the operation the decoder reads from the low `nbits` bits of `w`. -/
def decodeTableWord (nbits w : Nat) : Option Instr :=
  match decode (BitVec.ofNat 32 (w % 2 ^ nbits)) with
  | .ok i => some i
  | .error _ => none

end Sys2Proof
end

