-- ==== Sys2Proof/Machine/State.lean ====
section
/-! DEFINITION. The block's state, the reasons a step stops, and the state after reset (spec 10_state.md). -/

namespace Sys2Proof.Machine

/-- Why the machine stops with a fault (spec 60_exceptions.md R190). -/
inductive Fault where
  /-- UNWRITTEN_PRN: the block read a PRN byte nothing has written since reset (R57, R190). Raised by `prnRead`, in a burst of
  TX_BYTE or TX_BUF. Safe: the hardware sends some unspecified byte and goes on. -/
  | unwrittenPrn (sel : Bool) (i : Nat)
  /-- HOST_READ_UNADMITTED: the block read a host-memory byte outside HostAdmit (R50, R190); no step exists. Raised by
  `memRead`, in RAW_TX, RAW_CONT and TX_BUF. Safe: a stuck state is not final. -/
  | hostReadUnadmitted (addr : Nat)
  /-- A PRN index of 64 or more: PRN memories have 64 bytes (R33, R56). Raised by `prnRead` in no state a run from reset
  reaches (log 31). Safe. -/
  | prnIndexOutside (i : Nat)
  deriving DecidableEq, Repr

/-- What the host and the platform do next (R79, R195, R210). An access names its register by the byte offset from REG_BASE. -/
inductive Input where
  /-- The host does nothing for one step of the block. -/
  | block
  /-- The host reads `bytes` bytes at offset `off`. -/
  | read (bytes off : Nat)
  /-- The host writes `bytes` bytes of `v` at offset `off`. -/
  | write (bytes off : Nat) (v : Word)
  /-- `poll REG, m, v`: read the word at `off` until `value & m = v` (R79). -/
  | poll (off : Nat) (m v : Word)
  /-- The host writes one byte of its own memory (R54, R195). -/
  | memWrite (a : Word) (v : Byte)
  /-- The platform asserts block reset (R210). -/
  | reset
  /-- The host has run `init()`, the clock and power bring-up (R196, R213); it happens outside the block (R6). -/
  | init
  /-- The host has run `txInit()`, which resets and configures the transceiver and forces it Idle (R196, R211, R213); it happens
  outside the block (R6). -/
  | txInit
  deriving DecidableEq, Repr

/-- Why the model has no meaning for a step or a launch. -/
inductive Refusal where
  /-- An operation that has no meaning yet. Raised by no arm of this model. Safe. -/
  | notModelled (mnemonic : String)
  /-- HOST_ACCESS_REFUSED: a host register access that is not a naturally aligned 32-bit word (20_memory.md R61, R190). Raised
  by `hostRead`, `hostWrite` and `hostPoll`. Safe: the hardware's response is not in the source. -/
  | hostAccessRefused (bytes off : Nat)
  /-- BAD_PARAMS: a parameter instance that breaks 00_scope.md R10 (R190). Raised by `State.launch`. Safe. -/
  | badParams
  deriving DecidableEq, Repr

/-- The dispatch errors (60_exceptions.md R181, R183, R184). -/
inductive ErrorCode where
  | ill
  | ovr
  | range
  deriving DecidableEq, Repr

/-- The controller phases (R36). -/
inductive Phase where
  | idle
  | flushCmd
  | flushPoll
  | fifoFlush
  | load
  | start
  | settlePoll
  | refillWait
  | refillQuery
  | refillWrite
  | endPoll
  | endIdle
  | symWait
  | symFetch
  deriving DecidableEq, Repr

/-- `seq.src`, where the next byte of a transfer comes from (R37). -/
inductive Src where
  /-- HOST(p): host memory at p; p may reach 2^32, one past the last byte (R38). -/
  | host (p : Nat)
  /-- PRN(sel, i): byte i of pattern memory `sel`; i may reach 64, one past the last byte. -/
  | prn (sel : Bool) (i : Nat)
  /-- ZERO: every byte is 0x00. -/
  | zero
  deriving DecidableEq, Repr

/-- The kinds of wait (R103). -/
inductive WaitKind where
  | refill
  | jitter
  deriving DecidableEq, Repr

/-- A port transaction in flight (R39, R90). -/
inductive Txn where
  /-- A strobe that the transceiver side has not accepted yet. -/
  | strobe (c : RadioCommand)
  /-- A burst: the bytes transferred so far, and how many are left. -/
  | burst (sent : List Byte) (left : Nat)
  deriving DecidableEq, Repr

/-- A port event of the history (R105). -/
inductive PortEvent where
  /-- STROBE(code, status); no status as long as the transceiver side has returned none (R92). -/
  | strobe (code : Byte) (status : Option Byte)
  /-- BURST(bytes): the bytes transferred, so far if the burst is in flight (R94). -/
  | burst (bytes : List Byte)
  /-- WAIT(kind). -/
  | wait (kind : WaitKind)
  /-- Block reset cut the transaction of the event before; the transceiver received its first `received` bytes (R210, I11). -/
  | cut (received : Nat)
  deriving DecidableEq, Repr

/-- What the host has done of its preparations; no piece of the block, which keeps no such record (R120, R214; log 35). -/
structure HostRecord where
  /-- `init()` has been run (R213). -/
  initDone : Bool
  /-- `txInit()` has been run after `init()`, and block reset has cut no operation since (R211, R213). -/
  txInitDone : Bool
  /-- How many events the port history had when the order of the raw operations last began anew (R120; log 22). -/
  orderFrom : Nat
  deriving DecidableEq, Repr

/-- Everything the spec gives the machine; INVENTORY.md, heading State, lists each field with its rule and its reset value. -/
structure State where
  /-- The parameter instance of this launch (R9); no step changes it. -/
  params : Params
  /-- ARG_BYTE (R27). -/
  argByte : Byte
  /-- ARG_LEN (R28). -/
  argLen : Half
  /-- ARG_ADDR (R29). -/
  argAddr : Word
  /-- RESULT.PARITY (R30). -/
  result : Byte
  /-- STATUS.BUSY (R26). -/
  busy : Bool
  /-- STATUS.ILL (R26, R181). -/
  ill : Bool
  /-- STATUS.OVR (R26, R183). -/
  ovr : Bool
  /-- STATUS.RANGE (R26, R184). -/
  range : Bool
  /-- STATUS.LAST_RSTATUS (R26, R92). -/
  lastRStatus : Byte
  /-- L_BYTE (R34). -/
  lByte : Byte
  /-- L_LEN (R34). -/
  lLen : Half
  /-- L_ADDR (R34). -/
  lAddr : Word
  /-- seq.op; `none` is NONE (R22). -/
  op : Option Instr
  /-- seq.phase, shown as STATUS.PHASE (R22, R36). -/
  phase : Phase
  /-- seq.chip (R22). -/
  chip : Fin 30
  /-- seq.symidx (R22). -/
  symidx : Half
  /-- seq.rem (R22). -/
  rem : Half
  /-- seq.src (R37). -/
  src : Src
  /-- The strobe or burst of this phase has been issued and is in flight (R39, R90). -/
  issued : Bool
  /-- Bytes of the burst in flight that are still to be transferred (R39, R94). -/
  burstLeft : Nat
  /-- Bytes of the burst in flight that were transferred (R39, R94). -/
  burstSent : List Byte
  /-- What remains of the wait in progress (R39, R103). -/
  waitLeft : Nat
  /-- CW, the current symbol's chip word (R39, R162). -/
  cw : BitVec 30
  /-- SB, the current symbol's data byte (R39, R164). -/
  sb : Byte
  /-- PRN0; `none` is an unwritten byte (R33, R57). -/
  prn0 : Vector (Option Byte) 64
  /-- PRN1; `none` is an unwritten byte (R33, R57). -/
  prn1 : Vector (Option Byte) 64
  /-- Host memory in canonical form (R50). -/
  mem : List Host.Cell
  /-- The model's own: older bytes of buffer bytes the host overwrote during the running operation (R54). -/
  stale : List Host.Cell
  /-- What the host and the platform do next; when it is empty only the block moves. -/
  inputs : List Input
  /-- The transceiver side's next answers to strobes; past its end they are free values (R102). -/
  statuses : List (Option Byte)
  /-- The transceiver side's next answers to burst bytes; past its end they are free values (R102). -/
  readies : List Bool
  /-- The model's own: how many free values have been taken. -/
  draws : Nat
  /-- The events of the transactions and waits that are over, oldest first; `State.history` adds the one in progress (R105). -/
  past : List PortEvent
  /-- The values host reads returned, as (offset, value), oldest first (R79). -/
  reads : List (Nat × Word)
  /-- The model's own: what the host has done of its preparations (R196, R211, R213). -/
  host : HostRecord
  deriving DecidableEq, Repr

/-- The machine right after block reset under a parameter instance, with nothing yet done by any agent (R41). -/
def State.initial (p : Params) : State where
  params := p
  argByte := 0
  argLen := 0
  argAddr := 0
  result := 0
  busy := false
  ill := false
  ovr := false
  range := false
  lastRStatus := 0
  lByte := 0
  lLen := 0
  lAddr := 0
  op := none
  phase := .idle
  chip := 0
  symidx := 0
  rem := 0
  src := .zero
  issued := false
  burstLeft := 0
  burstSent := []
  waitLeft := 0
  cw := 0
  sb := 0
  prn0 := Vector.replicate 64 none
  prn1 := Vector.replicate 64 none
  mem := []
  stale := []
  inputs := []
  statuses := []
  readies := []
  draws := 0
  past := []
  reads := []
  host := { initDone := false, txInitDone := false, orderFrom := 0 }

/-- The machine right after reset, under the hardware's own (open) parameter instance (R41, R210). -/
def State.reset : State := State.initial Config.params

end Sys2Proof.Machine
end

