-- ==== Sys2Proof/Machine/Ops.lean ====
section
/-! DEFINITION. The named operations over memory, the port and the state that every rule uses (spec 20_memory.md, 40_port.md,
60_exceptions.md, 70_reset_and_hazards.md). -/

namespace Sys2Proof.Machine

/-! Host memory: a list of cells at rising addresses, none equal to what an unlisted byte reads as (log 7). -/

/-- The byte of host memory at `a` (R50). -/
def Memory.read : List Host.Cell → Nat → Byte
  | [], _ => Config.unlistedByte
  | c :: m, a => if c.1 = a then c.2 else Memory.read m a

/-- Host memory after the host wrote `v` at `a` (R54); it stays in canonical form. -/
def Memory.write : List Host.Cell → Nat → Byte → List Host.Cell
  | [], a, v => if v = Config.unlistedByte then [] else [(a, v)]
  | c :: m, a, v =>
    if a < c.1 then (if v = Config.unlistedByte then c :: m else (a, v) :: c :: m)
    else if a = c.1 then (if v = Config.unlistedByte then m else (a, v) :: m)
    else c :: Memory.write m a v

/-- The canonical form from address `lo` on: strictly rising, inside the host address space, no cell at the unlisted value. -/
def Memory.wfFrom : Nat → List Host.Cell → Bool
  | _, [] => true
  | lo, c :: m =>
    decide (lo ≤ c.1) && decide (c.1 < Config.hostSpace) && (c.2 != Config.unlistedByte) && Memory.wfFrom (c.1 + 1) m

/-- Host memory is in canonical form. -/
def Memory.wf (m : List Host.Cell) : Bool := Memory.wfFrom 0 m

/-! Errors. -/

/-- `raise Error(code)`: the sticky flag of that code becomes 1 and nothing else changes (R182; ILL R181, OVR R183,
RANGE R184). This is the block's only way to report an error: there is no trap entry (R185) and no return (R187). -/
def raiseError (e : ErrorCode) (s : State) : State :=
  match e with
  | .ill => { s with ill := true }
  | .ovr => { s with ovr := true }
  | .range => { s with range := true }

/-! The port. -/

/-- The transceiver side's answer to the strobe in flight: not accepted yet, or a status byte (R92, R102; log 4). -/
def drawStatus (s : State) : Option Byte × State :=
  match s.statuses with
  | a :: rest => (a, { s with statuses := rest })
  | [] => (Config.strobeAnswer s.draws, { s with draws := s.draws + 1 })

/-- Whether the transceiver side takes the next burst byte now (R94, R102; log 4). -/
def drawReady (s : State) : Bool × State :=
  match s.readies with
  | a :: rest => (a, { s with readies := rest })
  | [] => (Config.byteReady s.draws, { s with draws := s.draws + 1 })

/-- A port event is over (R105). -/
def record (e : PortEvent) (s : State) : State := { s with past := s.past ++ [e] }

/-- The command a phase strobes, if it strobes one (R36). -/
def Phase.command : Phase → Option RadioCommand
  | .flushCmd => some .goIdle
  | .flushPoll => some .nop
  | .fifoFlush => some .flushTx
  | .start => some .startTx
  | .settlePoll => some .nop
  | .refillQuery => some .nop
  | .endPoll => some .nop
  | .endIdle => some .goIdle
  | .idle => none
  | .load => none
  | .refillWait => none
  | .refillWrite => none
  | .symWait => none
  | .symFetch => none

/-- The wait of a phase, if it is one (R36). -/
def Phase.waitKind : Phase → Option WaitKind
  | .refillWait => some .refill
  | .symWait => some .jitter
  | .idle => none
  | .flushCmd => none
  | .flushPoll => none
  | .fifoFlush => none
  | .load => none
  | .start => none
  | .settlePoll => none
  | .refillQuery => none
  | .refillWrite => none
  | .endPoll => none
  | .endIdle => none
  | .symFetch => none

/-- The port transaction in flight, at most one (R39, R90). -/
def State.inFlight (s : State) : Option Txn :=
  if s.issued then
    match s.phase with
    | .load => some (.burst s.burstSent s.burstLeft)
    | .refillWrite => some (.burst s.burstSent s.burstLeft)
    | p => p.command.map .strobe
  else none

/-- The event of a transaction in flight: a strobe has no status yet, a burst the bytes transferred so far (R92, R94). -/
def Txn.event (p : Params) : Txn → PortEvent
  | .strobe c => .strobe (p.strobeCode.code c) none
  | .burst sent _ => .burst sent

/-- The event in progress: the wait of this phase, or the transaction in flight. -/
def State.openEvent (s : State) : List PortEvent :=
  match s.phase.waitKind with
  | some k => [.wait k]
  | none => (s.inFlight.map (Txn.event s.params)).toList

/-- The port history (R105), oldest event first. A transaction stands in it from its issue on, before the block holds
(R92, R94); a wait from its beginning on (DEDUCED, log 15: R103 gives it no moment). -/
def State.history (s : State) : List PortEvent := s.past ++ s.openEvent

/-- The transaction of this phase is issued: `record port event`, the first line of `Strobe` and of `Burst` (R92, R94). -/
def issue (s : State) : State := { s with issued := true }

/-- The bytes of a transaction: one for a strobe. -/
def Txn.size : Txn → Nat
  | .strobe _ => 1
  | .burst sent left => sent.length + left

/-- The strobe in flight completes with status `b`: LAST_RSTATUS holds it, and its event has it (R92, R105). -/
def answerStrobe (c : RadioCommand) (b : Byte) (s : State) : State :=
  record (.strobe (s.params.strobeCode.code c) (some b)) { s with lastRStatus := b, issued := false }

/-- One block step of `Strobe(c)`: it is issued, if it is not yet, and the block holds, or the strobe completes and `k` goes on
with its status (R92). -/
def strobeStep (c : RadioCommand) (k : Byte → State → State) (s : State) : Host.Outcome State Fault Refusal :=
  match drawStatus (issue s) with
  | (none, s1) => .next s1
  | (some b, s1) => .next (k b (answerStrobe c b s1))

/-! Memory reads of the block. -/

/-- `a ∈ HostAdmit`, and it is an address (R50). -/
def admitted (p : Params) (a : Nat) : Bool :=
  decide (a < Config.hostSpace) && p.hostAdmit.any (fun r => decide (r.1 ≤ a) && decide (a < r.1 + r.2))

/-- The older values of byte `a` that a raced read may still return (R54). -/
def staleBytes (s : State) (a : Nat) : List Byte :=
  s.stale.filterMap (fun c => if c.1 = a then some c.2 else none)

/-- `MemRead(a, 1)` (R50); where the host overwrote the byte during the operation, the old or the new byte (R54). -/
def memRead (s : State) (a : Nat) : Except Fault (Byte × State) :=
  if admitted s.params a then
    match staleBytes s a with
    | [] => .ok (Memory.read s.mem a, s)
    | b :: bs =>
      let candidates := Memory.read s.mem a :: b :: bs
      .ok (candidates.getD (Config.racePick s.draws % candidates.length) b, { s with draws := s.draws + 1 })
  else .error (.hostReadUnadmitted a)

/-- The pattern memory PRN<sel> (R33). -/
def State.prn (s : State) (sel : Bool) : Vector (Option Byte) 64 := if sel then s.prn1 else s.prn0

/-- `PrnRead(sel, i)` (R56, R57). -/
def prnRead (s : State) (sel : Bool) (i : Nat) : Except Fault Byte :=
  match (s.prn sel)[i]? with
  | some (some b) => .ok b
  | some none => .error (.unwrittenPrn sel i)
  | none => .error (.prnIndexOutside i)

/-- The next byte of `seq.src`, which advances by one (R37, R112). -/
def takeByte (s : State) : Except Fault (Byte × State) :=
  match s.src with
  | .host p =>
    match memRead s p with
    | .ok (b, s1) => .ok (b, { s1 with src := .host (p + 1) })
    | .error f => .error f
  | .prn sel i =>
    match prnRead s sel i with
    | .ok b => .ok (b, { s with src := .prn sel (i + 1) })
    | .error f => .error f
  | .zero => .ok (0, s)

/-- A burst of `k` bytes begins in phase `p` (R94). -/
def enterBurst (p : Phase) (k : Nat) (s : State) : State :=
  { s with phase := p, burstLeft := k, burstSent := [] }

/-- The burst in flight is complete: its event has all its bytes, and `rem` falls by their number (R94, R105, R112, R113). -/
def closeBurst (s : State) : State :=
  record (.burst s.burstSent)
    { s with rem := s.rem - BitVec.ofNat 16 s.burstSent.length, burstSent := [], issued := false }

/-- One block step of a `Burst`: it is issued, if it is not yet, and no byte is left and `k` goes on, or the block holds until
the transceiver side is ready, or the next byte is read and transferred (R94, R112; log 16). -/
def burstStep (k : State → State) (s : State) : Host.Outcome State Fault Refusal :=
  match s.burstLeft with
  | 0 => .next (k (closeBurst s))
  | left + 1 =>
    match drawReady (issue s) with
    | (false, s1) => .next s1
    | (true, s1) =>
      match takeByte s1 with
      | .ok (b, s2) => .next { s2 with burstLeft := left, burstSent := s2.burstSent ++ [b] }
      | .error f => .fault f

/-! Waits (R103). -/

/-- How long the next `Wait(JITTER)` lasts: FIXED_SPACING, or a draw from `[JITTER_MIN, JITTER_MAX]` (R103, R169). Where that
interval is empty the spec states no duration, and it is any (DESIGN CHOICE, log 14). -/
def jitterDuration (s : State) : Nat :=
  if s.params.debugSpacing then s.params.fixedSpacing
  else if s.params.jitterMin ≤ s.params.jitterMax then
    s.params.jitterMin + Config.jitterPick s.draws % (s.params.jitterMax - s.params.jitterMin + 1)
  else Config.jitterPick s.draws

/-- `Wait(REFILL)` begins (R103, R112). -/
def enterRefillWait (s : State) : State := { s with phase := .refillWait, waitLeft := s.params.refillWait }

/-- `Wait(JITTER)` begins (R103, R167). -/
def enterSymWait (s : State) : State :=
  { s with phase := .symWait, waitLeft := jitterDuration s, draws := s.draws + 1 }

/-- One block step of a wait: one unit of the interval passes, or the wait ends, is recorded, and `k` goes on (R103; log 13). -/
def waitStep (kind : WaitKind) (k : State → State) (s : State) : Host.Outcome State Fault Refusal :=
  match s.waitLeft with
  | 0 => .next (k (record (.wait kind) s))
  | n + 1 => .next { s with waitLeft := n }

/-! Completion, reset, launch. -/

/-- Completion of an operation (R35); what was stale was so for this operation only (R54). -/
def complete (s : State) : State := { s with busy := false, op := none, phase := .idle, stale := [] }

/-- The history as block reset leaves it: the event in progress stays, and a transaction in flight is cut at a point the spec
does not fix (R210, I11). DEDUCED, log 17: a cancelled wait keeps its WAIT event (R105 records every wait), and a cut burst
keeps the bytes it had transferred. -/
def cutHistory (s : State) : List PortEvent :=
  match s.inFlight with
  | none => s.history
  | some t => s.history ++ [.cut (Config.cutPick s.draws % (t.size + 1))]

/-- The host's record after block reset: a reset that cuts an operation, at whatever step it is, asks for `txInit()` anew (R211)
and ends the transmission it may have been part of (DEDUCED, log 22); after any other nothing new is asked. -/
def recordAfterReset (s : State) : HostRecord :=
  if s.busy then { s.host with txInitDone := false, orderFrom := (cutHistory s).length } else s.host

/-- Block reset: every piece of block state takes its value of 10_state.md R41; host memory, the transceiver side and the
records are not the block's (R210). -/
def blockReset (s : State) : State :=
  { State.initial s.params with
    mem := s.mem, inputs := s.inputs, statuses := s.statuses, readies := s.readies,
    draws := s.draws + 1, past := cutHistory s, reads := s.reads, host := recordAfterReset s }

/-! The host's preparations (R196, R211, R213). They happen outside the block and change only the host's record (R214; log 35). -/

/-- The host has run `init()` (R213; DESIGN CHOICE, log 35). -/
def hostInit (s : State) : State := { s with host := { s.host with initDone := true } }

/-- The host has run `txInit()`: it counts if `init()` came first (R213), and it forces the transceiver Idle, which ends any
transmission (R196). While BUSY = 1 the host has no such move, for it would use the port (R104), and nothing happens (DESIGN
CHOICE, log 35). -/
def hostTxInit (s : State) : State :=
  if s.busy then s
  else { s with host := { s.host with txInitDone := s.host.initDone, orderFrom := s.history.length } }

/-- Launch with a parameter instance: refused if it breaks 00_scope.md R10 (BAD_PARAMS, R190). -/
def State.launch (p : RawParams) : Host.Outcome State Fault Refusal :=
  if h : p.admissible = true then .next (State.initial { p with ok := h }) else .refused .badParams

end Sys2Proof.Machine
end

