-- ==== Sys2Proof/Machine/Flags.lean ====
section
/-! DEFINITION. Flags and words assembled from fields: STATUS and its clearing, PROGRESS, SYMIDX, and the four predicates over
a transceiver status byte (spec 10_state.md R26, R31, R32, R36, 40_port.md R97 to R101). -/

namespace Sys2Proof.Machine

/-- The PHASE codes of STATUS[11:8] (R36). -/
def Phase.code : Phase → BitVec 4
  | .idle => 0
  | .flushCmd => 1
  | .flushPoll => 2
  | .fifoFlush => 3
  | .load => 4
  | .start => 5
  | .settlePoll => 6
  | .refillWait => 7
  | .refillQuery => 8
  | .refillWrite => 9
  | .endPoll => 10
  | .endIdle => 11
  | .symWait => 12
  | .symFetch => 13

/-- The cause codes (R181, R183, R184). -/
def ErrorCode.code : ErrorCode → Nat
  | .ill => 1
  | .ovr => 2
  | .range => 3

/-- STATUS as the host reads it; reserved fields read 0 (R26). -/
def statusWord (s : State) : Word :=
  0#8 ++ s.lastRStatus ++ 0#4 ++ s.phase.code ++ 0#4 ++ BitVec.ofBool s.range ++ BitVec.ofBool s.ovr ++ BitVec.ofBool s.ill
    ++ BitVec.ofBool s.busy

/-- A host write of `w` to STATUS clears each of ILL, OVR, RANGE whose bit is 1 in `w` and nothing else (R26, R187). -/
def clearFlags (w : Word) (s : State) : State :=
  { s with ill := s.ill && !w.getLsbD 1, ovr := s.ovr && !w.getLsbD 2, range := s.range && !w.getLsbD 3 }

/-- PROGRESS: REM in bits [15:0], CHIP in bits [20:16] (R31). -/
def progressWord (s : State) : Word := 0#11 ++ BitVec.ofNat 5 s.chip.val ++ s.rem

/-- SYMIDX in bits [15:0] (R32). -/
def symidxWord (s : State) : Word := 0#16 ++ s.symidx

/-- "the busy bits of StatusByte clear" (R97). -/
def idleReady (p : Params) (b : Byte) : Bool := b &&& p.idleMask == 0

/-- "the oscillator-settling bits clear" (R98). -/
def settled (p : Params) (b : Byte) : Bool := b &&& p.settleMask == 0

/-- The count of free TX-FIFO bytes (R99); at most 64 (R100). -/
def freeSpace (p : Params) (b : Byte) : Nat := (b &&& p.freeMask).toNat

/-- The status value that means "FIFO empty and chip fully idle" (R101). -/
def endReached (p : Params) (b : Byte) : Bool := b == p.endStatus

end Sys2Proof.Machine
end

