-- ==== Sys2Proof/Machine/Operands.lean ====
section
/-! DEFINITION. The operand forms: the latches copied at dispatch, the host-memory range, the lengths (spec 10_state.md R34,
30_encoding.md R72, R73, 60_exceptions.md R184). -/

namespace Sys2Proof.Machine

/-- Dispatch copies the argument registers into the latches, the only operands an operation reads (R34, R72). -/
def latchOperands (s : State) : State := { s with lByte := s.argByte, lLen := s.argLen, lAddr := s.argAddr }

/-- The operations that read host memory (R51, R73). -/
def usesHostMemory : Instr → Bool
  | .rawTx => true
  | .rawCont => true
  | .txBuf => true
  | .fecEnc => false
  | .flushIdle => false
  | .rawZero => false
  | .rawEnd => false
  | .txByte => false

/-- The operations that send symbols (R164, R167). -/
def sendsSymbols : Instr → Bool
  | .txByte => true
  | .txBuf => true
  | .fecEnc => false
  | .flushIdle => false
  | .rawTx => false
  | .rawCont => false
  | .rawZero => false
  | .rawEnd => false

/-- The range `[ADDR, ADDR + LEN)` leaves the host address space (R184). -/
def rangeFails (addr : Word) (len : Half) : Bool :=
  decide (0 < len.toNat) && decide (Config.hostSpace < addr.toNat + len.toNat)

/-- The operation in progress sends symbols. -/
def State.inSymbol (s : State) : Bool := s.op.any sendsSymbols

/-- `L` of StreamStart: the latched length, or one chip's 64 bytes (R113, R115, R164). -/
def streamLen (s : State) : Nat := if s.inSymbol then Config.prnLength else s.lLen.toNat

/-- The host-memory byte `a` is in the buffer of the operation in progress (R54, R73). -/
def inBuffer (s : State) (a : Nat) : Bool :=
  s.op.any usesHostMemory && decide (s.lAddr.toNat ≤ a) && decide (a < s.lAddr.toNat + s.lLen.toNat)

end Sys2Proof.Machine
end

