-- ==== Sys2Proof/Machine/Fec.lean ====
section
/-! DEFINITION. The linear-block FEC encoder (spec 42_fec.md) and dispatch (10_state.md R34), with FEC_ENC. -/

namespace Sys2Proof.Machine

/-- The number of one bits (R11). -/
def popcount {n : Nat} (v : BitVec n) : Nat := (List.range n).countP v.getLsbD

/-- `parity(v) = popcount(v) mod 2`, as a bit (R11). -/
def parity {n : Nat} (v : BitVec n) : Bool := popcount v % 2 == 1

/-- Parity bit i: the XOR of the data bits FEC_MASKS[i] selects (R140). -/
def parityBit (masks : Vector Byte 8) (d : Byte) (i : Fin 8) : Bool := parity (d &&& masks[i])

/-- `FecParity(d)` (R140). -/
def fecParity (masks : Vector Byte 8) (d : Byte) : Byte :=
  BitVec.ofBool (parityBit masks d 7) ++ BitVec.ofBool (parityBit masks d 6) ++ BitVec.ofBool (parityBit masks d 5)
    ++ BitVec.ofBool (parityBit masks d 4) ++ BitVec.ofBool (parityBit masks d 3) ++ BitVec.ofBool (parityBit masks d 2)
    ++ BitVec.ofBool (parityBit masks d 1) ++ BitVec.ofBool (parityBit masks d 0)

/-- Dispatch of an operation of the map (R34): a busy block sets OVR and nothing else; otherwise the operands are latched, an
operation on host memory whose range leaves the address space sets RANGE and does not start, and any other starts. The
opcode check (ILL) stands where the word is decoded (`cmdWrite`); R186 gives the order. -/
def dispatch (i : Instr) (start : State → State) (s : State) : State :=
  if s.busy then raiseError .ovr s
  else if usesHostMemory i && rangeFails s.argAddr s.argLen then raiseError .range (latchOperands s)
  else start (latchOperands s)

/-- `seq.op <- op; BUSY <- 1` (R34). -/
def beginOp (i : Instr) (s : State) : State := { s with op := some i, busy := true }

/-- `RESULT[7:0] <- FecParity(L_BYTE)` (R143). -/
def encodeLatchedByte (s : State) : State := { s with result := fecParity s.params.fecMasks s.lByte }

/-- FEC_ENC (R143): complete inside its dispatch; BUSY is never set. -/
def execFecEnc (s : State) : Host.Outcome State Fault Refusal :=
  .next (dispatch .fecEnc encodeLatchedByte s)

end Sys2Proof.Machine
end

