-- ==== Sys2Proof/Machine/ChipMap.lean ====
section
/-! DEFINITION. The chip map: from a payload byte to the 30 chips of its symbol (spec 43_spreader.md R160 to R163). -/

namespace Sys2Proof.Machine

/-- PREAMBLE, in time order (R161). -/
def preamble : List Bool := [true, true, true, false, false, true, false]

/-- POSTAMBLE, in time order (R161). -/
def postamble : List Bool := [true, false, true, true, false, false, false]

/-- The bits of a byte, most significant first (R162). -/
def bitsMsbFirst (b : Byte) : List Bool :=
  [b.getLsbD 7, b.getLsbD 6, b.getLsbD 5, b.getLsbD 4, b.getLsbD 3, b.getLsbD 2, b.getLsbD 1, b.getLsbD 0]

/-- `SymbolChips(d)`, the list form of R162. -/
def symbolChips (masks : Vector Byte 8) (d : Byte) : List Bool :=
  preamble ++ bitsMsbFirst (fecParity masks d) ++ bitsMsbFirst d ++ postamble

/-- `CW(d)`, the chip-word form of R162: chip j is bit `29 − j`. -/
def chipWord (masks : Vector Byte 8) (d : Byte) : BitVec 30 :=
  0b1110010#7 ++ fecParity masks d ++ d ++ 0b1011000#7

/-- The value of chip `j` of the current symbol, `CW[29 − j]` (R162, R164). -/
def chipBit (s : State) (j : Nat) : Bool := s.cw.getLsbD (29 - j)

end Sys2Proof.Machine
end

