-- ==== Sys2Proof/Machine/Controller.lean ====
section
/-! DEFINITION. The streaming transmit controller: its shared procedures as phase entries, and one block step of the operation
in progress (spec 41_stream.md R110 to R113, R119; 43_spreader.md R164, R167). -/

namespace Sys2Proof.Machine

/-- The first line of `StreamStart(src, L)`, and so of its FlushIdle (R111, R113). -/
def streamStart (src : Src) (len : Half) (s : State) : State :=
  { s with src := src, rem := len, phase := .flushCmd }

/-- The next chip of the symbol by `RefillLoop(PRN(CW[29 − chip], 0), 64)`, or after chip 29 the end poll (R112, R164). -/
def nextChip (s : State) : State :=
  if h : s.chip.val + 1 < 30 then
    enterRefillWait { s with chip := ⟨s.chip.val + 1, h⟩, src := .prn (chipBit s (s.chip.val + 1)) 0, rem := 64 }
  else { s with phase := .endPoll }

/-- What follows a refill loop: the next chip of a symbol, or completion (R115 to R117, R119, R164). -/
def refillDone (s : State) : State := if s.inSymbol then nextChip s else complete s

/-- The test `while rem > 0` of the refill loop (R112). -/
def refillTest (s : State) : State := if s.rem = 0 then refillDone s else enterRefillWait s

/-- `RefillLoop(src, n)` (R112). -/
def refillLoop (src : Src) (n : Half) (s : State) : State := refillTest { s with src := src, rem := n }

/-- `TxSymbol(b)`, up to its first port step (R164). -/
def txSymbol (b : Byte) (s : State) : State :=
  let cw := chipWord s.params.fecMasks b
  streamStart (.prn (cw.getLsbD 29) 0) 64 { s with sb := b, cw := cw, chip := 0 }

/-! What follows each step of a phase (R119). -/

/-- After the flush poll's NOP: poll again, or FLUSH_IDLE completes, or the FIFO flush (R111, R113, R114). -/
def afterFlushPoll (b : Byte) (s : State) : State :=
  if idleReady s.params b then
    if s.op = some .flushIdle then complete s else { s with phase := .fifoFlush }
  else s

/-- After FLUSH_TX: the initial burst of `min(L, 64)` bytes (R113). -/
def afterFifoFlush (_ : Byte) (s : State) : State := enterBurst .load (min (streamLen s) Config.fifoCap) s

/-- After the initial burst: START_TX (R113). -/
def afterLoad (s : State) : State := { s with phase := .start }

/-- After START_TX: for `L ≤ 64` a symbol goes on to its next chip and RAW_TX completes; otherwise the settle poll (R113, R119). -/
def afterStart (_ : Byte) (s : State) : State :=
  if streamLen s ≤ Config.fifoCap then refillDone s else { s with phase := .settlePoll }

/-- After the settle poll's NOP: poll again, or the refill loop from byte 64 (R113). -/
def afterSettlePoll (b : Byte) (s : State) : State :=
  if settled s.params b then refillLoop s.src (BitVec.ofNat 16 (streamLen s - Config.fifoCap)) s else s

/-- After the free-space query: a burst of `min(free(s), rem)` bytes (R112). -/
def afterRefillQuery (b : Byte) (s : State) : State :=
  enterBurst .refillWrite (min (freeSpace s.params b) s.rem.toNat) s

/-- After the end poll's NOP: poll again, or GO_IDLE (R118, R164). -/
def afterEndPoll (b : Byte) (s : State) : State :=
  if endReached s.params b then { s with phase := .endIdle } else s

/-- After the final GO_IDLE: the next symbol of TX_BUF after a jitter wait, or completion (R118, R164, R167). -/
def afterEndIdle (_ : Byte) (s : State) : State :=
  if s.op = some .txBuf ∧ s.symidx.toNat + 1 < s.lLen.toNat then enterSymWait { s with symidx := s.symidx + 1 }
  else complete s

/-- The SYM_FETCH step: `b <- MemRead(ADDR + symidx, 1); TxSymbol(b)` (R167). -/
def symFetchStep (s : State) : Host.Outcome State Fault Refusal :=
  match memRead s (s.lAddr.toNat + s.symidx.toNat) with
  | .ok (b, s1) => .next (txSymbol b s1)
  | .error f => .fault f

/-- One step of the block: of the operation in progress, or, in phase IDLE, waiting for a CMD write (R66, R119, R212). -/
def blockStep (s : State) : Host.Outcome State Fault Refusal :=
  match s.phase with
  | .idle => .next s
  | .flushCmd => strobeStep .goIdle (fun _ t => { t with phase := .flushPoll }) s
  | .flushPoll => strobeStep .nop afterFlushPoll s
  | .fifoFlush => strobeStep .flushTx afterFifoFlush s
  | .load => burstStep afterLoad s
  | .start => strobeStep .startTx afterStart s
  | .settlePoll => strobeStep .nop afterSettlePoll s
  | .refillWait => waitStep .refill (fun t => { t with phase := .refillQuery }) s
  | .refillQuery => strobeStep .nop afterRefillQuery s
  | .refillWrite => burstStep refillTest s
  | .endPoll => strobeStep .nop afterEndPoll s
  | .endIdle => strobeStep .goIdle afterEndIdle s
  | .symWait => waitStep .jitter (fun t => { t with phase := .symFetch }) s
  | .symFetch => symFetchStep s

end Sys2Proof.Machine
end

