-- ==== Sys2Proof/Machine/Spreader.lean ====
section
/-! DEFINITION. The two transmit operations of the chip mapper and spreader: TX_BYTE and TX_BUF (spec 43_spreader.md R164,
R167). Each is its dispatch (10_state.md R34); `blockStep` carries out its rule step by step. -/

namespace Sys2Proof.Machine

/-- TX_BYTE begins: `symidx <- 0; TxSymbol(L_BYTE)` (R164). -/
def startTxByte (s : State) : State :=
  txSymbol s.lByte { beginOp .txByte s with symidx := 0 }

/-- TX_BYTE (R164). -/
def execTxByte (s : State) : Host.Outcome State Fault Refusal :=
  .next (dispatch .txByte startTxByte s)

/-- TX_BUF begins with symbol 0 in phase SYM_FETCH; with `LEN = 0` its loop has no iteration and it completes at once
(R119, R167; log 18). -/
def startTxBuf (s : State) : State :=
  if s.lLen = 0 then complete (beginOp .txBuf s)
  else { beginOp .txBuf s with symidx := 0, phase := .symFetch }

/-- TX_BUF (R167). -/
def execTxBuf (s : State) : Host.Outcome State Fault Refusal :=
  .next (dispatch .txBuf startTxBuf s)

end Sys2Proof.Machine
end

