-- ==== Sys2Proof/Machine/Stream.lean ====
section
/-! DEFINITION. The five operations of the streaming controller: FLUSH_IDLE, RAW_TX, RAW_CONT, RAW_ZERO, RAW_END
(spec 41_stream.md R114 to R118). Each is its dispatch (10_state.md R34); `blockStep` carries out its rule step by step. -/

namespace Sys2Proof.Machine

/-- FLUSH_IDLE begins: `rem <- 0; chip <- 0; symidx <- 0; FlushIdle()` (R114). -/
def startFlushIdle (s : State) : State :=
  { beginOp .flushIdle s with rem := 0, chip := 0, symidx := 0, phase := .flushCmd }

/-- FLUSH_IDLE (R114). -/
def execFlushIdle (s : State) : Host.Outcome State Fault Refusal :=
  .next (dispatch .flushIdle startFlushIdle s)

/-- RAW_TX begins: `chip <- 0; symidx <- 0; StreamStart(HOST(ADDR), LEN)` (R115). -/
def startRawTx (s : State) : State :=
  streamStart (.host s.lAddr.toNat) s.lLen { beginOp .rawTx s with chip := 0, symidx := 0 }

/-- RAW_TX (R115). -/
def execRawTx (s : State) : Host.Outcome State Fault Refusal :=
  .next (dispatch .rawTx startRawTx s)

/-- RAW_CONT begins: `chip <- 0; symidx <- 0; RefillLoop(HOST(ADDR), LEN)`; with `LEN = 0` it completes at once (R116). -/
def startRawCont (s : State) : State :=
  refillLoop (.host s.lAddr.toNat) s.lLen { beginOp .rawCont s with chip := 0, symidx := 0 }

/-- RAW_CONT (R116). -/
def execRawCont (s : State) : Host.Outcome State Fault Refusal :=
  .next (dispatch .rawCont startRawCont s)

/-- RAW_ZERO begins: `chip <- 0; symidx <- 0; RefillLoop(ZERO, LEN)`; with `LEN = 0` it completes at once (R117). -/
def startRawZero (s : State) : State :=
  refillLoop .zero s.lLen { beginOp .rawZero s with chip := 0, symidx := 0 }

/-- RAW_ZERO (R117). -/
def execRawZero (s : State) : Host.Outcome State Fault Refusal :=
  .next (dispatch .rawZero startRawZero s)

/-- RAW_END begins: `rem <- 0; chip <- 0; symidx <- 0`, then the end poll (R118). -/
def startRawEnd (s : State) : State :=
  { beginOp .rawEnd s with rem := 0, chip := 0, symidx := 0, phase := .endPoll }

/-- RAW_END (R118). -/
def execRawEnd (s : State) : Host.Outcome State Fault Refusal :=
  .next (dispatch .rawEnd startRawEnd s)

end Sys2Proof.Machine
end

