-- ==== Sys2Proof/Machine/Dispatch.lean ====
section
/-! DEFINITION. The dispatch of an operation to its meaning, one arm per operation of the opcode map (spec 30_encoding.md R71). -/

namespace Sys2Proof.Machine

def exec (i : Instr) (s : State) : Host.Outcome State Fault Refusal :=
  match i with
  | .fecEnc => Sys2Proof.Machine.execFecEnc s
  | .flushIdle => Sys2Proof.Machine.execFlushIdle s
  | .rawTx => Sys2Proof.Machine.execRawTx s
  | .rawCont => Sys2Proof.Machine.execRawCont s
  | .rawZero => Sys2Proof.Machine.execRawZero s
  | .rawEnd => Sys2Proof.Machine.execRawEnd s
  | .txByte => Sys2Proof.Machine.execTxByte s
  | .txBuf => Sys2Proof.Machine.execTxBuf s

end Sys2Proof.Machine
end

