-- ==== Sys2Proof/Machine/Bus.lean ====
section
/-! DEFINITION. The host's side: register reads and writes, the CMD write, host memory writes, reset, and which agent moves next
(spec 10_state.md R23 to R34, 20_memory.md R54, R57, R61 to R63, 30_encoding.md R76, R79, 70_reset_and_hazards.md R210, R213). -/

namespace Sys2Proof.Machine

/-- A host write of `w` to CMD (R24, R34): the word is decoded and its operation dispatched; an illegal opcode sets ILL, or
OVR while the block is busy (R74, R181, R183, R186). -/
def cmdWrite (w : Word) (s : State) : Host.Outcome State Fault Refusal :=
  match decode w with
  | .ok i => exec i s
  | .error _ => .next (raiseError (if s.busy then .ovr else .ill) s)

/-- The PRN register at an offset: which pattern, and which of its 64 bytes (R23, R33). -/
def prnRegister (off : Nat) : Option (Bool × Nat) :=
  if 0x100 ≤ off ∧ off < 0x200 then some (false, (off - 0x100) / 4)
  else if 0x200 ≤ off ∧ off < 0x300 then some (true, (off - 0x200) / 4)
  else none

/-- A host read of PRN byte `i`: its value in bits [7:0], a free value where nothing has written it (R33, R57). -/
def prnReadByHost (sel : Bool) (i : Nat) (s : State) : Word × State :=
  match (s.prn sel)[i]? with
  | some (some b) => (b.setWidth 32, s)
  | _ => ((Config.unwrittenByte s.draws).setWidth 32, { s with draws := s.draws + 1 })

/-- What the host reads at an offset of the register window (R23, R24, R26 to R33, R76); no read has a side effect (R63). -/
def regRead (off : Nat) (s : State) : Word × State :=
  match prnRegister off with
  | some (sel, i) => prnReadByHost sel i s
  | none =>
    if off = 0x004 then (statusWord s, s)
    else if off = 0x008 then (s.argByte.setWidth 32, s)
    else if off = 0x00C then (s.argLen.setWidth 32, s)
    else if off = 0x010 then (s.argAddr, s)
    else if off = 0x014 then (s.result.setWidth 32, s)
    else if off = 0x018 then (progressWord s, s)
    else if off = 0x01C then (symidxWord s, s)
    else (0, s)

/-- A host write to PRN<sel>[i]: OVR while busy, else bits [7:0] are stored (R33, R183). -/
def prnWrite (sel : Bool) (i : Nat) (v : Word) (s : State) : State :=
  if s.busy then raiseError .ovr s
  else if sel then { s with prn1 := s.prn1.setIfInBounds i (some (v.setWidth 8)) }
  else { s with prn0 := s.prn0.setIfInBounds i (some (v.setWidth 8)) }

/-- A host write at an offset of the register window (R23 to R33, R76). -/
def regWrite (off : Nat) (v : Word) (s : State) : Host.Outcome State Fault Refusal :=
  match prnRegister off with
  | some (sel, i) => .next (prnWrite sel i v s)
  | none =>
    if off = 0x000 then cmdWrite v s
    else if off = 0x004 then .next (clearFlags v s)
    else if off = 0x008 then .next { s with argByte := v.setWidth 8 }
    else if off = 0x00C then .next { s with argLen := v.setWidth 16 }
    else if off = 0x010 then .next { s with argAddr := v }
    else .next s

/-- A read is recorded with the value it returned (R79). -/
def recordRead (off : Nat) (s : State) : State :=
  let (v, s1) := regRead off s
  { s1 with reads := s1.reads ++ [(off, v)] }

/-- A host read (R61, R79). -/
def hostRead (bytes off : Nat) (s : State) : Host.Outcome State Fault Refusal :=
  if HostAccess.wellFormed bytes off then .next (recordRead off s) else .refused (.hostAccessRefused bytes off)

/-- A host write (R61). -/
def hostWrite (bytes off : Nat) (v : Word) (s : State) : Host.Outcome State Fault Refusal :=
  if HostAccess.wellFormed bytes off then regWrite off v s else .refused (.hostAccessRefused bytes off)

/-- One read of `poll REG, m, v`; until it gives the wanted bits the poll stays next, after one step of the block (R79; log 3). -/
def hostPoll (off : Nat) (m v : Word) (s : State) : Host.Outcome State Fault Refusal :=
  if HostAccess.wellFormed 4 off then
    if (regRead off s).1 &&& m = v then .next (recordRead off s)
    else .next { recordRead off s with inputs := .block :: .poll off m v :: s.inputs }
  else .refused (.hostAccessRefused 4 off)

/-- The host writes a byte of its memory; in the buffer of the operation in progress that is a race, and the older byte is
kept beside the new one (R54; log 12). -/
def hostMemWrite (a : Word) (v : Byte) (s : State) : State :=
  { s with
    mem := Memory.write s.mem a.toNat v
    stale := if inBuffer s a.toNat then s.stale ++ [(a.toNat, Memory.read s.mem a.toNat)] else s.stale }

/-- What the agent outside the block does in one step. -/
def inputStep (x : Input) (s : State) : Host.Outcome State Fault Refusal :=
  match x with
  | .block => blockStep s
  | .read bytes off => hostRead bytes off s
  | .write bytes off v => hostWrite bytes off v s
  | .poll off m v => hostPoll off m v s
  | .memWrite a v => .next (hostMemWrite a v s)
  | .reset => .next (blockReset s)
  | .init => .next (hostInit s)
  | .txInit => .next (hostTxInit s)

/-- Which agent moves: the one the queue names first, and with nothing queued the block (R62, R66; log 3). -/
def nextMove (s : State) : Host.Outcome State Fault Refusal :=
  match s.inputs with
  | [] => blockStep s
  | x :: rest => inputStep x { s with inputs := rest }

/-- A CMD write of the low `nbits` bits of `w` is what the host does next. -/
def queueCommand (nbits w : Nat) (s : State) : State :=
  { s with inputs := .write 4 0 (BitVec.ofNat 32 (w % 2 ^ nbits)) :: s.inputs }

end Sys2Proof.Machine
end

