-- ==== Sys2Proof/Machine/Step.lean ====
section
/-! DEFINITION. One step of the machine: one host access, or one step of the block (spec 20_memory.md R62, R66). -/

namespace Sys2Proof.Machine

/-- One step. -/
def step (s : State) : Host.Outcome State Fault Refusal := nextMove s

/-- The state in which the host's next access writes the command word `w` to CMD: the block fetches nothing (R22), a command comes
from outside (log 2). -/
def State.withFetchWord (s : State) (nbits w : Nat) : State := queueCommand nbits w s

end Sys2Proof.Machine
end

