-- ==== Sys2Proof/Machine/HostDuties.lean ====
section
/-! DEFINITION. What the host must do (spec 60_exceptions.md R196): its duties as a test on its next move, and the machine whose
host keeps them. -/

namespace Sys2Proof.Machine

/-- Both patterns are written whole (R213). -/
def prnLoaded (s : State) : Bool := s.prn0.toList.all Option.isSome && s.prn1.toList.all Option.isSome

/-- Whether a raw transmission is in progress after an event, if `on` says so before it: START_TX begins one and GO_IDLE ends it
(R93). DEDUCED, log 22: a reset that cut an operation ends it too, for which a cut event need not stand in the history, so
`transmitting` counts only from `HostRecord.orderFrom` on. -/
def transmissionAfter (p : Params) (on : Bool) : PortEvent → Bool
  | .strobe c _ => if c == p.strobeCode.startTx then true else if c == p.strobeCode.goIdle then false else on
  | .burst _ => on
  | .wait _ => on
  | .cut _ => false

/-- A transmission is in progress. The block keeps no record of it (R120). The history shows it, from where the order of the raw
operations last began anew: DEDUCED, log 22, a block reset that cut an operation, in a transaction, in a wait or between two
steps, ends the transmission, and so does `txInit()`, which forces Idle (R196, R211). -/
def transmitting (s : State) : Bool :=
  (s.history.drop s.host.orderFrom).foldl (transmissionAfter s.params) false

/-- The duties at a dispatch: `init()` before any radio call, which is every operation but FEC_ENC (R213; log 35), and then
`txInit()` before a transmission begins, `txInit()` again after a reset that cut an operation (R196, R211, R213); both patterns written before TX_BYTE and TX_BUF; and the order RAW_TX, then RAW_CONT or
RAW_ZERO, then RAW_END (R120, R196; log 22 says how the order is read). -/
def mayDispatch (s : State) : Instr → Bool
  | .txByte => s.host.initDone && s.host.txInitDone && prnLoaded s
  | .txBuf => s.host.initDone && s.host.txInitDone && prnLoaded s
  | .rawTx => s.host.initDone && s.host.txInitDone && !transmitting s
  | .rawCont => s.host.initDone && transmitting s
  | .rawZero => s.host.initDone && transmitting s
  | .rawEnd => s.host.initDone && transmitting s
  | .fecEnc => true
  | .flushIdle => s.host.initDone

/-- A write to CMD keeps the duties: while busy it is dropped (R183), and an illegal opcode dispatches nothing (R181). DESIGN
CHOICE, unsafe, log 36: a write that RANGE refuses is held to the duties as any other dispatch is, though its operation does not
start (R182, R184); the spec does not say whether they bind it. -/
def mayCommand (s : State) (w : Word) : Bool :=
  match decode w with
  | .ok i => s.busy || mayDispatch s i
  | .error _ => true

/-- A move of the host keeps its duties (R196): the preparations in their order (R213), no use of the port while BUSY = 1 (R104),
the patterns, the order of the raw operations, and no write into the buffer in use (R54). DESIGN CHOICE, log 35: `init()` is a move
at any time, while BUSY = 1 too, for the spec forbids it nowhere. -/
def keepsDuties (s : State) : Input → Bool
  | .block => true
  | .read _ _ => true
  | .write bytes off w => bytes != 4 || off != 0x000 || mayCommand s w
  | .poll _ _ _ => true
  | .memWrite a _ => !inBuffer s a.toNat
  | .reset => true
  | .init => true
  | .txInit => s.host.initDone && !s.busy

/-- One step of the machine whose host keeps its duties. `none` is no outcome of the machine: R196 gives the host no such move. -/
def dutifulStep (s : State) : Option (Host.Outcome State Fault Refusal) :=
  match s.inputs with
  | [] => some (step s)
  | x :: _ => if keepsDuties s x then some (step s) else none

/-- A launch of `k` steps under such a host; `none` is a launch that R196 leaves unsaid. -/
def dutifulRun : Nat → State → Option (Host.Outcome State Fault Refusal)
  | 0, s => some (.next s)
  | k + 1, s =>
    match dutifulStep s with
    | some (.next t) => dutifulRun k t
    | some (.fault f) => some (.fault f)
    | some (.refused r) => some (.refused r)
    | none => none

end Sys2Proof.Machine
end

