-- ==== Sys2Proof/Machine/HostNotation.lean ====
section
/-! DEFINITION. The host-program notation and the pseudo-instructions, as what they put into the host's queue
(spec 30_encoding.md R79, R80; 10_state.md R23). -/

namespace Sys2Proof.Machine

/-- The registers of the map (R23). -/
inductive Reg where
  | cmd
  | status
  | argByte
  | argLen
  | argAddr
  | result
  | progress
  | symidx
  | prn (sel : Bool) (i : Fin 64)
  deriving DecidableEq, Repr

/-- The byte offset of a register from REG_BASE (R23). -/
def Reg.offset : Reg → Nat
  | .cmd => 0x000
  | .status => 0x004
  | .argByte => 0x008
  | .argLen => 0x00C
  | .argAddr => 0x010
  | .result => 0x014
  | .progress => 0x018
  | .symidx => 0x01C
  | .prn sel i => (if sel then 0x200 else 0x100) + 4 * i.val

/-- The host-bus address of an offset of the register window: REG_BASE plus the offset, a sum of natural numbers that does not
wrap (R11, R23, R64; log 21). -/
def busAddress (p : Params) (off : Nat) : Nat := p.regBase + off

/-- The offset a host-bus address at or above REG_BASE names. -/
def busOffset (p : Params) (a : Nat) : Option Nat := if p.regBase ≤ a then some (a - p.regBase) else none

/-- `sw REG, v` (R79). -/
def sw (r : Reg) (v : Word) : List Input := [.write 4 r.offset v]

/-- `lw REG` (R79). -/
def lw (r : Reg) : List Input := [.read 4 r.offset]

/-- `poll REG, m, v` (R79). -/
def poll (r : Reg) (m v : Word) : List Input := [.poll r.offset m v]

/-- `wait` (R80). -/
def waitDone : List Input := poll .status 0x1 0x0

/-- `prn.load s, [b0, ..., b63]` (R79): 64 writes, in index order. -/
def prnLoad (sel : Bool) (bytes : Vector Byte 64) : List Input :=
  (List.finRange 64).flatMap (fun i => sw (.prn sel i) (bytes[i].setWidth 32))

/-- The pseudo-instructions (R80). -/
inductive Pseudo where
  | fecEnc (b : Byte)
  | flushIdle
  | rawTx (a : Word) (n : Half)
  | rawCont (a : Word) (n : Half)
  | rawZero (n : Half)
  | rawEnd
  | txByte (b : Byte)
  | txBuf (a : Word) (n : Half)
  deriving DecidableEq, Repr

/-- The host accesses a pseudo-instruction expands to (R80). -/
def Pseudo.expand : Pseudo → List Input
  | .fecEnc b => sw .argByte (b.setWidth 32) ++ sw .cmd 0x01
  | .flushIdle => sw .cmd 0x10 ++ waitDone
  | .rawTx a n => sw .argAddr a ++ sw .argLen (n.setWidth 32) ++ sw .cmd 0x11 ++ waitDone
  | .rawCont a n => sw .argAddr a ++ sw .argLen (n.setWidth 32) ++ sw .cmd 0x12 ++ waitDone
  | .rawZero n => sw .argLen (n.setWidth 32) ++ sw .cmd 0x13 ++ waitDone
  | .rawEnd => sw .cmd 0x14 ++ waitDone
  | .txByte b => sw .argByte (b.setWidth 32) ++ sw .cmd 0x20 ++ waitDone
  | .txBuf a n => sw .argAddr a ++ sw .argLen (n.setWidth 32) ++ sw .cmd 0x21 ++ waitDone

/-- The host runs pseudo-instructions one after another. -/
def runHost (ps : List Pseudo) (s : State) : State := { s with inputs := s.inputs ++ ps.flatMap Pseudo.expand }

end Sys2Proof.Machine
end

