-- ==== Sys2Proof/Safety.lean ====
section
/-! DEFINITION. The terms in which claims speak: the FIFO-write stream, what a phase may follow, the invariants of the controller,
the named property of the code, a transceiver side that answers (spec 00_scope.md R16, 10_state.md R38, 41_stream.md R119,
42_fec.md R145, 43_spreader.md R165). -/

namespace Sys2Proof.Machine

/-! The FIFO-write stream. -/

/-- The bytes a port event writes into the TX FIFO (R16). DEDUCED, log 17: a burst that block reset cut counts with the bytes
the block had transferred, since R16 counts every burst issued; how many the transceiver received R210 leaves open, and only
the cut event says. -/
def PortEvent.bytes : PortEvent → List Byte
  | .burst bs => bs
  | .strobe _ _ => []
  | .wait _ => []
  | .cut _ => []

/-- The FIFO-write stream of a stretch of the history (R16, R59). -/
def fifoStream (es : List PortEvent) : List Byte := es.flatMap PortEvent.bytes

/-- What the port saw since the history had `n` events (R105). -/
def eventsSince (n : Nat) (s : State) : List PortEvent := s.history.drop n

/-- The bytes of host memory at `[a, a + n)` (R73, R123). -/
def bufferBytes (s : State) (a n : Nat) : List Byte := (List.range n).map (fun i => Memory.read s.mem (a + i))

/-- Every byte of `[a, a + n)` may be read, and the host has changed none of them during an operation (R50, R54). -/
def bufferReadable (s : State) (a n : Nat) : Prop := s.stale = [] ∧ ∀ i, i < n → admitted s.params (a + i) = true

/-- The 64 bytes of pattern `sel`, where they are written (R160). -/
def patternBytes (s : State) (sel : Bool) : List Byte := (s.prn sel).toList.map (fun c => c.getD 0)

/-- `PRN<c0> ++ ... ++ PRN<c29>` for the chips of `d` (R165). -/
def symbolStream (s : State) (d : Byte) : List Byte :=
  (symbolChips s.params.fecMasks d).flatMap (patternBytes s)

/-! The code (R145). -/

/-- `FecMinDist5`: every nonzero codeword has weight at least 5. A premise only (R145). -/
def FecMinDist5 (masks : Vector Byte 8) : Prop :=
  ∀ d : Byte, d ≠ 0 → 5 ≤ popcount d + popcount (fecParity masks d)

/-! The commands the block sends (R78). -/

/-- A strobe event, if it is one, carries one of the four commands the block sends (R78). -/
def PortEvent.sentCommand (p : Params) : PortEvent → Bool
  | .strobe c _ =>
    c == p.strobeCode.goIdle || c == p.strobeCode.flushTx || c == p.strobeCode.startTx || c == p.strobeCode.nop
  | .burst _ => true
  | .wait _ => true
  | .cut _ => true

/-- A burst event, if it is one, has at most 64 bytes (R95). -/
def PortEvent.burstFits : PortEvent → Bool
  | .burst bs => decide (bs.length ≤ Config.burstMax)
  | .strobe _ _ => true
  | .wait _ => true
  | .cut _ => true

/-! The controller's invariants. -/

/-- The phases of FlushIdle and StreamStart. -/
def Phase.starting : Phase → Bool
  | .flushCmd | .flushPoll | .fifoFlush | .load | .start => true
  | .idle | .settlePoll | .refillWait | .refillQuery | .refillWrite | .endPoll | .endIdle | .symWait | .symFetch => false

/-- The phases of the refill loop. -/
def Phase.refilling : Phase → Bool
  | .refillWait | .refillQuery | .refillWrite => true
  | .idle | .flushCmd | .flushPoll | .fifoFlush | .load | .start | .settlePoll | .endPoll | .endIdle | .symWait
  | .symFetch => false

/-- The phases of the closing sequence. -/
def Phase.ending : Phase → Bool
  | .endPoll | .endIdle => true
  | .idle | .flushCmd | .flushPoll | .fifoFlush | .load | .start | .settlePoll | .refillWait | .refillQuery | .refillWrite
  | .symWait | .symFetch => false

/-- The phases between symbols of TX_BUF. -/
def Phase.between : Phase → Bool
  | .symWait | .symFetch => true
  | .idle | .flushCmd | .flushPoll | .fifoFlush | .load | .start | .settlePoll | .refillWait | .refillQuery | .refillWrite
  | .endPoll | .endIdle => false

/-- The phases a burst is in flight in. -/
def Phase.bursting : Phase → Bool
  | .load | .refillWrite => true
  | .idle | .flushCmd | .flushPoll | .fifoFlush | .start | .settlePoll | .refillWait | .refillQuery | .endPoll | .endIdle
  | .symWait | .symFetch => false

/-- The phases an operation passes through (R119). -/
def phaseOf : Instr → Phase → Bool
  | .fecEnc, _ => false
  | .flushIdle, p => p == .flushCmd || p == .flushPoll
  | .rawTx, p => p.starting || p == .settlePoll || p.refilling
  | .rawCont, p => p.refilling
  | .rawZero, p => p.refilling
  | .rawEnd, p => p.ending
  | .txByte, p => p.starting || p.refilling || p.ending
  | .txBuf, p => p.starting || p.refilling || p.ending || p.between

/-- BUSY, seq.op and seq.phase agree: idle with no operation, or an operation in one of its phases (R26, R34, R35, R119). -/
def SequenceInv (s : State) : Prop :=
  match s.op with
  | none => s.busy = false ∧ s.phase = .idle
  | some i => s.busy = true ∧ phaseOf i s.phase = true

/-- The burst in flight: its bytes fit one burst and what is left of the transfer, and none is transferred before it is issued;
outside a burst there is none, and only a strobe can be in flight (R39, R90, R95). -/
def BurstInv (s : State) : Prop :=
  if s.phase.bursting then
    s.burstSent.length + s.burstLeft ≤ Config.burstMax ∧ s.burstSent.length + s.burstLeft ≤ s.rem.toNat ∧
      (s.issued = false → s.burstSent = [])
  else s.burstLeft = 0 ∧ s.burstSent = [] ∧ (s.phase.command = none → s.issued = false)

/-- What is left to transfer counts from where the source stands (R37, R38, R53): of the operation's buffer for RAW_TX and
RAW_CONT, of one chip's 64 bytes for a symbol. -/
def SourceInv (s : State) : Prop :=
  match s.op with
  | none => s.rem = 0
  | some .rawTx | some .rawCont =>
    rangeFails s.lAddr s.lLen = false ∧ s.rem.toNat ≤ s.lLen.toNat ∧
      ∃ p, s.src = .host p ∧ p + s.rem.toNat = s.lAddr.toNat + s.lLen.toNat + s.burstSent.length
  | some .rawZero => s.rem.toNat ≤ s.lLen.toNat ∧ s.src = .zero
  | some .flushIdle | some .rawEnd => s.rem = 0
  | some .txByte | some .txBuf =>
    if s.phase.between then s.rem = 0
    else s.cw = chipWord s.params.fecMasks s.sb ∧ s.rem.toNat ≤ Config.prnLength ∧
      ∃ i, s.src = .prn (chipBit s s.chip.val) i ∧ i + s.rem.toNat = Config.prnLength + s.burstSent.length
  | some .fecEnc => False

/-- Before the first chip is out the transfer stands at its start, and after the last burst nothing is left of it. -/
def ProgressInv (s : State) : Prop :=
  (s.phase.starting = true → s.phase ≠ .start → s.op ≠ some .flushIdle →
    s.rem.toNat = streamLen s ∧ (s.inSymbol = true → s.chip = 0)) ∧
  (s.phase = .load → s.burstSent.length + s.burstLeft = min (streamLen s) Config.fifoCap) ∧
  (s.phase = .start → s.rem.toNat = streamLen s - Config.fifoCap ∧ (s.inSymbol = true → s.chip = 0)) ∧
  (s.phase = .settlePoll → s.rem.toNat = streamLen s - Config.fifoCap ∧ Config.fifoCap < streamLen s) ∧
  (s.phase.refilling = true → s.rem ≠ 0) ∧
  (s.phase.ending = true → s.rem = 0 ∧ (s.inSymbol = true → s.chip.val = 29))

/-- The symbol index of TX_BUF stays below its length, and its buffer inside the address space (R38). -/
def SymbolInv (s : State) : Prop :=
  s.op = some .txBuf → s.symidx.toNat < s.lLen.toNat ∧ rangeFails s.lAddr s.lLen = false

/-- The controller's invariant (R38, R119). -/
def Inv (s : State) : Prop := SequenceInv s ∧ BurstInv s ∧ SourceInv s ∧ ProgressInv s ∧ SymbolInv s

/-- The burst of a refill step has at most the free space that the status just before it reported (R112, R122). -/
def RefillFitsInv (s : State) : Prop :=
  s.phase = .refillWrite → s.burstSent.length + s.burstLeft ≤ (s.lastRStatus &&& s.params.freeMask).toNat

/-- What of the symbol's FIFO-write stream has been written since the history had `base` events (R165): the chips before the
current one and the current chip up to where its source stands. -/
def SymbolStreamInv (base : Nat) (s : State) : Prop :=
  Inv s ∧ s.inSymbol = true ∧ s.phase.between = false ∧ prnLoaded s = true ∧ base ≤ s.past.length ∧
    fifoStream (eventsSince base s) =
      (symbolStream s s.sb).take (Config.prnLength * (s.chip.val + 1) + s.burstSent.length - s.rem.toNat)

/-- The phase after a finished step of the block: the transition table R119, row by row. `b` is the status of the strobe just
answered, `left` what `rem` is after the burst just closed. -/
def phaseAfter (s : State) (b : Byte) (left : Half) : Phase :=
  match s.phase with
  | .idle => .idle
  | .flushCmd => .flushPoll
  | .flushPoll =>
    if b &&& s.params.idleMask = 0 then (if s.op = some .flushIdle then .idle else .fifoFlush) else .flushPoll
  | .fifoFlush => .load
  | .load => .start
  | .start => if streamLen s ≤ Config.fifoCap then (if s.inSymbol then .refillWait else .idle) else .settlePoll
  | .settlePoll => if b &&& s.params.settleMask = 0 then .refillWait else .settlePoll
  | .refillWait => .refillQuery
  | .refillQuery => .refillWrite
  | .refillWrite =>
    if left ≠ 0 then .refillWait else if s.inSymbol then (if s.chip.val < 29 then .refillWait else .endPoll) else .idle
  | .endPoll => if b = s.params.endStatus then .endIdle else .endPoll
  | .endIdle => if s.op = some .txBuf ∧ s.symidx.toNat + 1 < s.lLen.toNat then .symWait else .idle
  | .symWait => .symFetch
  | .symFetch => .flushCmd

/-- What an event of the history may become in one step: a strobe in flight its status, a burst in flight more bytes, and
nothing else changes (R92, R94, R105). -/
def PortEvent.becomes : PortEvent → PortEvent → Prop
  | .strobe c none, f => ∃ r, f = .strobe c r
  | .strobe c (some b), f => f = .strobe c (some b)
  | .burst bs, f => ∃ more, f = .burst (bs ++ more)
  | .wait k, f => f = .wait k
  | .cut n, f => f = .cut n

/-! A transceiver side that answers: a premise (R124, R231). -/

/-- The transceiver side answers the next strobes with `answers` at once and takes the next `m` bytes at once. -/
def answersWith (s : State) (answers : List (Option Byte)) (m : Nat) : Prop :=
  (∃ rest, s.statuses = answers ++ rest) ∧ ∃ rest, s.readies = List.replicate m true ++ rest

/-- The answers one symbol needs when every status but those of its end reports `n` free bytes: GO_IDLE, one NOP, FLUSH_TX,
START_TX, the queries of 29 chips, then END_STATUS and the answer to the last GO_IDLE (R164). -/
def symbolAnswers (n : Nat) (b e g : Byte) : List (Option Byte) :=
  List.replicate (4 + 29 * ((Config.prnLength + n - 1) / n)) (some b) ++ [some e, some g]

/-- After the operation begun in `s` the machine has run to the completed state `t` (R35). -/
def runsTo (s t : State) : Prop := ∃ k, Host.Core.run core k s = .next t ∧ t.busy = false ∧ t.op = none ∧ t.phase = .idle

end Sys2Proof.Machine
end

