-- ==== Sys2Proof/Certificates/Slice0/Obligations.lean ====
section
/-! DEFINITION. The statements about the model, each from a rule of spec/. OBLIGATIONS.json lists them; the numbers "log n" are
notes/assumptions/n.md. -/

open Sys2Proof Sys2Proof.Machine

/-! Encoding (30_encoding.md). -/

/-- Decoding an encoded operation gives it back, whatever stands in the ignored bits (R70, R71, R77). -/
def Obligations.DecodeInvertsEncode : Prop :=
  ∀ (i : Instr) (hi : BitVec 24), decode (encode hi i) = .ok i

/-- A word decodes to an operation exactly when its low byte is that operation's opcode, and every other word is illegal, by name;
the decoder is total (R77). -/
def Obligations.DecodeByOpcodeAlone : Prop :=
  (∀ (w : Word) (i : Instr), decode w = .ok i ↔ w &&& 0x000000FF#32 = i.opcode.setWidth 32) ∧
  ∀ w : Word, (∀ i : Instr, decode w ≠ .ok i) ↔ decode w = .error (.illegalOpcode (w.extractLsb' 0 8))

/-- Bits [31:8] of a CMD word have no effect on what it dispatches (R75). -/
def Obligations.IgnoredBitsDispatchAlike : Prop :=
  ∀ (w : Word) (s : State), cmdWrite w s = cmdWrite (w &&& 0xFF#32) s

/-- Words written out from the opcode map decode to their operations (R71). -/
def Obligations.WrittenWordsDecode : Prop :=
  decode 0x00000001#32 = .ok .fecEnc ∧ decode 0xFFFFFF01#32 = .ok .fecEnc ∧ decode 0x00000010#32 = .ok .flushIdle ∧
    decode 0x00000011#32 = .ok .rawTx ∧ decode 0x00000012#32 = .ok .rawCont ∧ decode 0x00000013#32 = .ok .rawZero ∧
    decode 0x00000014#32 = .ok .rawEnd ∧ decode 0x00000020#32 = .ok .txByte ∧ decode 0x00000021#32 = .ok .txBuf ∧
    decode 0x00000000#32 = .error (.illegalOpcode 0x00)

/-! CMD writes and dispatch (10_state.md R24, R34; 60_exceptions.md). -/

/-- When the host's next access writes a word to CMD that decodes to `i`, the step is `exec i` (R24, R34). -/
def Obligations.StepRunsDecodedCommand : Prop :=
  ∀ (s : State) (w : Word) (i : Instr) (rest : List Input),
    s.inputs = .write 4 0 w :: rest → decode w = .ok i → step s = exec i { s with inputs := rest }

/-- A CMD write with an illegal opcode while idle sets ILL and has no other effect (R181). -/
def Obligations.IllegalOpcodeSetsIll : Prop :=
  ∀ (s : State) (w : Word) (rest : List Input),
    s.inputs = .write 4 0 w :: rest → s.busy = false → legalOpcodes.contains (w.extractLsb' 0 8) = false →
      step s = .next { s with inputs := rest, ill := true }

/-- While busy an operation dispatched, a CMD write of any word and a PRN write set OVR and are dropped; writes to the argument registers and to STATUS
do what they do when idle (R183). -/
def Obligations.WritesWhileBusy : Prop :=
  (∀ (i : Instr) (s : State), s.busy = true → exec i s = .next { s with ovr := true }) ∧
  ∀ (s : State) (off : Nat) (w : Word) (rest : List Input),
    s.inputs = .write 4 off w :: rest → s.busy = true →
      (off = 0x000 → step s = .next { s with inputs := rest, ovr := true }) ∧
      (off % 4 = 0 → 0x100 ≤ off → off < 0x300 → step s = .next { s with inputs := rest, ovr := true }) ∧
      (off = 0x008 → step s = .next { s with inputs := rest, argByte := w.setWidth 8 }) ∧
      (off = 0x00C → step s = .next { s with inputs := rest, argLen := w.setWidth 16 }) ∧
      (off = 0x010 → step s = .next { s with inputs := rest, argAddr := w }) ∧
      (off = 0x004 → step s = .next (clearFlags w { s with inputs := rest }))

/-- A host-memory range that leaves the address space sets RANGE, starts nothing and leaves the rejected operands in the latches;
the other five operations are never range-checked, and HostAdmit is not looked at (R184). -/
def Obligations.RangeErrorAtDispatch : Prop :=
  ∀ s : State, s.busy = false →
    (0 < s.argLen.toNat → 2 ^ 32 < s.argAddr.toNat + s.argLen.toNat →
      ∀ i, i = .rawTx ∨ i = .rawCont ∨ i = .txBuf →
        exec i s = .next { s with lByte := s.argByte, lLen := s.argLen, lAddr := s.argAddr, range := true }) ∧
    ((s.argLen.toNat = 0 ∨ s.argAddr.toNat + s.argLen.toNat ≤ 2 ^ 32) →
      ∀ i, i = .rawTx ∨ i = .rawCont ∨ i = .txBuf → ∃ t, exec i s = .next t ∧ t.range = s.range) ∧
    (∀ i, i = .rawZero ∨ i = .txByte ∨ i = .fecEnc ∨ i = .flushIdle ∨ i = .rawEnd →
      ∃ t, exec i s = .next t ∧ t.range = s.range)

/-! Each operation at its dispatch. -/

/-- FEC_ENC writes RESULT inside its dispatch and never sets BUSY; while busy it is dropped with OVR; its corner cases and its
example (R143). -/
def Obligations.FecEncWritesResult : Prop :=
  (∀ s : State, s.busy = false →
    exec .fecEnc s = .next { s with
      lByte := s.argByte, lLen := s.argLen, lAddr := s.argAddr, result := fecParity s.params.fecMasks s.argByte }) ∧
  (∀ s : State, s.busy = true → exec .fecEnc s = .next { s with ovr := true }) ∧
  (∀ masks : Vector Byte 8, fecParity masks 0x00 = 0x00) ∧
  (∀ masks : Vector Byte 8, fecParity masks 0xFF =
    ((List.range 8).map (fun j => fecParity masks (1 <<< j))).foldl (· ^^^ ·) 0) ∧
  (∀ s t : State, s.busy = false → exec .fecEnc s = .next t → exec .fecEnc t = .next t) ∧
  fecParity #v[0x17, 0x2E, 0x5C, 0xB8, 0x71, 0xE2, 0xC5, 0x8B] 0x01 = 0xD1

/-- FLUSH_IDLE begins with FLUSH_CMD and RAW_END with the end poll; both clear the counters (R34, R114, R118). -/
def Obligations.FlushIdleAndRawEndBegin : Prop :=
  ∀ s : State, s.busy = false →
    exec .flushIdle s = .next { s with
      lByte := s.argByte, lLen := s.argLen, lAddr := s.argAddr, op := some .flushIdle, busy := true,
      rem := 0, chip := 0, symidx := 0, phase := .flushCmd } ∧
    exec .rawEnd s = .next { s with
      lByte := s.argByte, lLen := s.argLen, lAddr := s.argAddr, op := some .rawEnd, busy := true,
      rem := 0, chip := 0, symidx := 0, phase := .endPoll }

/-- RAW_TX begins its StreamStart on the host buffer (R34, R113, R115). -/
def Obligations.RawTxBegins : Prop :=
  ∀ s : State, s.busy = false → (s.argLen.toNat = 0 ∨ s.argAddr.toNat + s.argLen.toNat ≤ 2 ^ 32) →
    exec .rawTx s = .next { s with
      lByte := s.argByte, lLen := s.argLen, lAddr := s.argAddr, op := some .rawTx, busy := true,
      chip := 0, symidx := 0, src := .host s.argAddr.toNat, rem := s.argLen, phase := .flushCmd }

/-- RAW_CONT begins its refill loop with a wait; with `LEN = 0` it completes at once (R34, R112, R116). -/
def Obligations.RawContBegins : Prop :=
  ∀ s : State, s.busy = false → (s.argLen.toNat = 0 ∨ s.argAddr.toNat + s.argLen.toNat ≤ 2 ^ 32) →
    exec .rawCont s = .next (
      if s.argLen = 0 then
        { s with
          lByte := s.argByte, lLen := 0, lAddr := s.argAddr, op := none, busy := false, phase := .idle, stale := [],
          chip := 0, symidx := 0, src := .host s.argAddr.toNat, rem := 0 }
      else
        { s with
          lByte := s.argByte, lLen := s.argLen, lAddr := s.argAddr, op := some .rawCont, busy := true, phase := .refillWait,
          chip := 0, symidx := 0, src := .host s.argAddr.toNat, rem := s.argLen, waitLeft := s.params.refillWait })

/-- RAW_ZERO begins its refill loop of zeros with a wait, whatever ARG_ADDR holds; with `LEN = 0` it completes at once
(R34, R112, R117). -/
def Obligations.RawZeroBegins : Prop :=
  ∀ s : State, s.busy = false →
    exec .rawZero s = .next (
      if s.argLen = 0 then
        { s with
          lByte := s.argByte, lLen := 0, lAddr := s.argAddr, op := none, busy := false, phase := .idle, stale := [],
          chip := 0, symidx := 0, src := .zero, rem := 0 }
      else
        { s with
          lByte := s.argByte, lLen := s.argLen, lAddr := s.argAddr, op := some .rawZero, busy := true, phase := .refillWait,
          chip := 0, symidx := 0, src := .zero, rem := s.argLen, waitLeft := s.params.refillWait })

/-- TX_BYTE begins its symbol: SB, CW, chip 0 from PRN1 (CW[29] is always 1), and the flush to idle (R34, R164). -/
def Obligations.TxByteBegins : Prop :=
  ∀ s : State, s.busy = false →
    exec .txByte s = .next { s with
      lByte := s.argByte, lLen := s.argLen, lAddr := s.argAddr, op := some .txByte, busy := true, symidx := 0,
      sb := s.argByte, cw := chipWord s.params.fecMasks s.argByte, chip := 0, src := .prn true 0, rem := 64,
      phase := .flushCmd }

/-- TX_BUF begins with the fetch of its first payload byte; with `LEN = 0` it completes at once, and (log 18) leaves the counters as they
were (R34, R119, R167). -/
def Obligations.TxBufBegins : Prop :=
  ∀ s : State, s.busy = false → (s.argLen.toNat = 0 ∨ s.argAddr.toNat + s.argLen.toNat ≤ 2 ^ 32) →
    exec .txBuf s = .next (
      if s.argLen = 0 then
        { s with
          lByte := s.argByte, lLen := 0, lAddr := s.argAddr, op := none, busy := false, phase := .idle, stale := [] }
      else
        { s with
          lByte := s.argByte, lLen := s.argLen, lAddr := s.argAddr, op := some .txBuf, busy := true, symidx := 0,
          phase := .symFetch })

/-! Frames. -/

/-- FEC_ENC changes nothing but OVR (dropped while busy), the latches and RESULT; every byte of memory reads as before (R143). -/
def Obligations.FecEncFrame : Prop :=
  ∀ s t : State, exec .fecEnc s = .next t →
    t = { s with ovr := t.ovr, lByte := t.lByte, lLen := t.lLen, lAddr := t.lAddr, result := t.result } ∧
    ∀ a, Memory.read t.mem a = Memory.read s.mem a

/-- At their dispatch the five streaming operations change nothing but OVR, RANGE, the latches, BUSY, the sequencing state, the
wait and the race record; every byte of memory reads as before (R34, R112 to R118). -/
def Obligations.StreamDispatchFrame : Prop :=
  ∀ (i : Instr) (s t : State),
    i = .flushIdle ∨ i = .rawTx ∨ i = .rawCont ∨ i = .rawZero ∨ i = .rawEnd → exec i s = .next t →
      t = { s with
        ovr := t.ovr, range := t.range, lByte := t.lByte, lLen := t.lLen, lAddr := t.lAddr, busy := t.busy, op := t.op,
        phase := t.phase, chip := t.chip, symidx := t.symidx, rem := t.rem, src := t.src, waitLeft := t.waitLeft,
        stale := t.stale } ∧
      ∀ a, Memory.read t.mem a = Memory.read s.mem a

/-- At their dispatch the two transmit operations change nothing but OVR, RANGE, the latches, BUSY, the sequencing state, SB, CW
and the race record; RESULT is not written and every byte of memory reads as before (R34, R164, R167). -/
def Obligations.TransmitDispatchFrame : Prop :=
  ∀ (i : Instr) (s t : State), i = .txByte ∨ i = .txBuf → exec i s = .next t →
    t = { s with
      ovr := t.ovr, range := t.range, lByte := t.lByte, lLen := t.lLen, lAddr := t.lAddr, busy := t.busy, op := t.op,
      phase := t.phase, chip := t.chip, symidx := t.symidx, rem := t.rem, src := t.src, sb := t.sb, cw := t.cw,
      stale := t.stale } ∧
    ∀ a, Memory.read t.mem a = Memory.read s.mem a

/-- A step of the block changes no register the host writes, no error flag, no latch, no PRN byte, no byte of host memory, and not
RESULT: operations read their operands from the latches only, and running operations raise no error (R51, R69, R182). -/
def Obligations.BlockStepFrame : Prop :=
  ∀ s t : State, s.inputs = [] → step s = .next t →
    t = { s with
      busy := t.busy, lastRStatus := t.lastRStatus, op := t.op, phase := t.phase, chip := t.chip, symidx := t.symidx,
      rem := t.rem, src := t.src, issued := t.issued, burstLeft := t.burstLeft, burstSent := t.burstSent,
      waitLeft := t.waitLeft, cw := t.cw, sb := t.sb, stale := t.stale, statuses := t.statuses, readies := t.readies,
      draws := t.draws, past := t.past } ∧
    ∀ a, Memory.read t.mem a = Memory.read s.mem a

/-! The FEC encoder and the chip map (42_fec.md, 43_spreader.md). -/

/-- Parity bit i is the parity of the data bits FEC_MASKS[i] selects (R140). -/
def Obligations.ParityBitsFollowMasks : Prop :=
  ∀ (masks : Vector Byte 8) (d : Byte) (i : Fin 8),
    (fecParity masks d).getLsbD i.val = (popcount (d &&& masks[i]) % 2 == 1)

/-- `FecParity` is linear for every FEC_MASKS, so its values on the single-bit bytes fix it, and those read off the masks (R141). -/
def Obligations.FecParityIsLinear : Prop :=
  ∀ masks : Vector Byte 8,
    fecParity masks 0x00 = 0x00 ∧
    (∀ a b : Byte, fecParity masks (a ^^^ b) = fecParity masks a ^^^ fecParity masks b) ∧
    (∀ d : Byte, fecParity masks d =
      (((List.range 8).filter d.getLsbD).map (fun j => fecParity masks (1 <<< j))).foldl (· ^^^ ·) 0) ∧
    ∀ (i j : Fin 8), (fecParity masks (1 <<< j.val)).getLsbD i.val = masks[i].getLsbD j.val

/-- Under `FecMinDist5` every single-bit byte has a parity byte of weight at least 4, and each data bit enters at least 4 masks
(R145). -/
def Obligations.MinDistanceForcesParityWeight : Prop :=
  ∀ masks : Vector Byte 8, FecMinDist5 masks →
    ∀ j : Fin 8, 4 ≤ popcount (fecParity masks (1 <<< j.val)) ∧
      4 ≤ (List.finRange 8).countP (fun i => masks[i].getLsbD j.val)

/-- The list form and the chip-word form of the chip map agree, and the chip word is the sum of its fields (R162). -/
def Obligations.ChipWordHoldsSymbolChips : Prop :=
  ∀ (masks : Vector Byte 8) (d : Byte),
    symbolChips masks d = (List.range 30).map (fun j => (chipWord masks d).getLsbD (29 - j)) ∧
    (chipWord masks d).setWidth 32 =
      0x39000058#32 ||| ((fecParity masks d).setWidth 32 <<< 15) ||| (d.setWidth 32 <<< 7)

/-- Every symbol's stream has 1920 bytes; its first 448 bytes are the preamble's patterns and its last 448 the postamble's, for
every payload byte (R165). -/
def Obligations.SymbolStreamFrame : Prop :=
  ∀ (s : State) (d : Byte),
    (symbolStream s d).length = 1920 ∧
    (symbolStream s d).take 448 = preamble.flatMap (patternBytes s) ∧
    (symbolStream s d).drop 1472 = postamble.flatMap (patternBytes s)

/-! The controller, step by step (40_port.md, 41_stream.md). -/

/-- Each strobe phase sends its command of R36. The strobe stands in the history from its issue on, before the block holds; the
block holds while the transceiver side does not accept, and completes with the one status byte returned, which LAST_RSTATUS
and the strobe's event hold (R92, R102, R105). -/
def Obligations.StrobeHoldsOrCompletes : Prop :=
  ∀ (s : State) (code : Byte), s.inputs = [] →
    (s.phase, code) ∈
      [(Phase.flushCmd, s.params.strobeCode.goIdle), (.flushPoll, s.params.strobeCode.nop),
       (.fifoFlush, s.params.strobeCode.flushTx), (.start, s.params.strobeCode.startTx),
       (.settlePoll, s.params.strobeCode.nop), (.refillQuery, s.params.strobeCode.nop),
       (.endPoll, s.params.strobeCode.nop), (.endIdle, s.params.strobeCode.goIdle)] →
    (∀ rest, s.statuses = none :: rest →
      ∃ t, step s = .next t ∧ t = { s with statuses := rest, issued := true } ∧
        t.history = s.past ++ [.strobe code none]) ∧
    ∀ b rest, s.statuses = some b :: rest →
      ∃ t, step s = .next t ∧ t.lastRStatus = b ∧ t.statuses = rest ∧ t.issued = false ∧
        t.past = s.past ++ [.strobe code (some b)]

/-- A step of the block either stays in its phase with no event that is over (a hold, a byte, a unit of a wait) or moves as the table says
(R119). -/
def Obligations.ControllerFollowsPhaseTable : Prop :=
  ∀ s t : State, Inv s → s.inputs = [] → step s = .next t →
    (t.phase = s.phase ∧ t.past = s.past) ∨
      t.phase = phaseAfter s t.lastRStatus (s.rem - BitVec.ofNat 16 s.burstSent.length)

/-- After the free-space query with status `b` the refill burst has `min(free(b), rem)` bytes (R112). -/
def Obligations.RefillQueryChoosesBurst : Prop :=
  ∀ (s : State) (b : Byte) (rest : List (Option Byte)),
    s.inputs = [] → s.phase = .refillQuery → s.statuses = some b :: rest →
      step s = .next { s with
        statuses := rest, lastRStatus := b, past := s.past ++ [.strobe s.params.strobeCode.nop (some b)], issued := false,
        phase := .refillWrite, burstLeft := min (b &&& s.params.freeMask).toNat s.rem.toNat, burstSent := [] }

/-- A burst stands in the history from its issue on, before the block holds. It transfers the next byte of its source when the
transceiver side is ready, and holds when it is not; a finished burst, an empty one too, is one event and `rem` falls by its
length (R37, R94, R112; log 16). -/
def Obligations.BurstTransfersSourceBytes : Prop :=
  ∀ (s : State), s.inputs = [] → s.phase.bursting = true →
    (∀ left rest, s.burstLeft = left + 1 → s.readies = false :: rest →
      ∃ t, step s = .next t ∧ t = { s with readies := rest, issued := true } ∧
        t.history = s.past ++ [.burst s.burstSent]) ∧
    (∀ left rest p, s.burstLeft = left + 1 → s.readies = true :: rest → s.src = .host p → admitted s.params p = true →
      s.stale = [] → step s = .next { s with
        readies := rest, issued := true, burstLeft := left, burstSent := s.burstSent ++ [Memory.read s.mem p],
        src := .host (p + 1) }) ∧
    (∀ left rest sel i b, s.burstLeft = left + 1 → s.readies = true :: rest → s.src = .prn sel i →
      (s.prn sel)[i]? = some (some b) → step s = .next { s with
        readies := rest, issued := true, burstLeft := left, burstSent := s.burstSent ++ [b], src := .prn sel (i + 1) }) ∧
    (∀ left rest, s.burstLeft = left + 1 → s.readies = true :: rest → s.src = .zero → step s = .next { s with
        readies := rest, issued := true, burstLeft := left, burstSent := s.burstSent ++ [0x00] }) ∧
    (s.issued = true → s.history = s.past ++ [.burst s.burstSent]) ∧
    (s.burstLeft = 0 → ∃ t, step s = .next t ∧ t.past = s.past ++ [.burst s.burstSent] ∧ t.issued = false ∧
      (s.phase = .load → t = { s with
        past := s.past ++ [.burst s.burstSent], rem := s.rem - BitVec.ofNat 16 s.burstSent.length, burstSent := [],
        issued := false, phase := .start }))

/-- A wait always ends, is one event, which stands in the history from its beginning on (log 15), and changes no register (R103;
the interval counted in block steps, log 13). -/
def Obligations.WaitsAlwaysEnd : Prop :=
  ∀ s : State, s.inputs = [] →
    (s.phase = .refillWait → s.history = s.past ++ [.wait .refill] ∧
      Host.Core.run core (s.waitLeft + 1) s = .next { s with
        waitLeft := 0, phase := .refillQuery, past := s.past ++ [.wait .refill] }) ∧
    (s.phase = .symWait → s.history = s.past ++ [.wait .jitter] ∧
      Host.Core.run core (s.waitLeft + 1) s = .next { s with
        waitLeft := 0, phase := .symFetch, past := s.past ++ [.wait .jitter] })

/-- Between two symbols of TX_BUF the jitter wait is drawn within its bounds, if they leave a duration to draw,
or is the fixed spacing (R103, R167, R169). -/
def Obligations.JitterWithinBounds : Prop :=
  ∀ (s : State) (b : Byte) (rest : List (Option Byte)),
    s.inputs = [] → s.phase = .endIdle → s.op = some .txBuf → s.symidx.toNat + 1 < s.lLen.toNat →
      s.statuses = some b :: rest →
      ∃ t, step s = .next t ∧ t.phase = .symWait ∧ t.symidx.toNat = s.symidx.toNat + 1 ∧
        (s.params.debugSpacing = true → t.waitLeft = s.params.fixedSpacing) ∧
        (s.params.debugSpacing = false → s.params.jitterMin ≤ s.params.jitterMax →
          s.params.jitterMin ≤ t.waitLeft ∧ t.waitLeft ≤ s.params.jitterMax)

/-- Every status byte reports at most 64 free bytes under an admissible instance (R100). -/
def Obligations.FreeSpaceAtMostBurst : Prop :=
  ∀ (p : Params) (b : Byte), (b &&& p.freeMask).toNat ≤ 64

/-- A parameter instance with `FREE_MASK > 64` is refused at launch, every other one is launched, and no state holds a refused
one (R10). -/
def Obligations.BadParametersRefused : Prop :=
  (∀ p : RawParams, 64 < p.freeMask.toNat → State.launch p = .refused .badParams) ∧
  (∀ p : RawParams, p.freeMask.toNat ≤ 64 → ∃ s, State.launch p = .next s ∧ s.params.toRawParams = p) ∧
  ∀ s : State, s.params.freeMask.toNat ≤ 64

/-! Where the machine stops. -/

/-- A burst that reaches an unwritten PRN byte faults, and a read outside HostAdmit, in a burst or in the fetch of a payload byte,
leaves the block stuck, each by name (R50, R57, R190). A host that keeps its duties (R196) has no move that dispatches an
operation against them, keeps both patterns written while a symbol is sent, and never meets the first of the two stops. Before
`init()` it dispatches FEC_ENC alone; it has `txInit()` only after `init()` and while BUSY = 0 (R104, R213). After a reset that cut an operation it has no transmission, begun
or to go on with, before `txInit()`, and after that RAW_TX again; a reset with BUSY = 0 asks nothing new (R211). How the order of
the raw operations is read, and that such a reset ends the transmission, is log 22; that
`init()` and `txInit()` are moves and `init()` one at any time, log 35; that the duties bind a dispatch that RANGE refuses too is log 36. -/
def Obligations.BlockReadsThatStop : Prop :=
  (∀ (s : State) (left i : Nat) (sel : Bool) (rest : List Bool),
    s.inputs = [] → s.phase.bursting = true → s.burstLeft = left + 1 → s.readies = true :: rest →
      s.src = .prn sel i → (s.prn sel)[i]? = some none → step s = .fault (.unwrittenPrn sel i)) ∧
  (∀ (s : State) (left p : Nat) (rest : List Bool),
    s.inputs = [] → s.phase.bursting = true → s.burstLeft = left + 1 → s.readies = true :: rest →
      s.src = .host p → admitted s.params p = false → step s = .fault (.hostReadUnadmitted p)) ∧
  (∀ s : State, s.inputs = [] → s.phase = .symFetch →
    admitted s.params (s.lAddr.toNat + s.symidx.toNat) = false →
      step s = .fault (.hostReadUnadmitted (s.lAddr.toNat + s.symidx.toNat))) ∧
  (∀ (s : State) (w : Word) (i : Instr) (rest : List Input),
    s.inputs = .write 4 0 w :: rest → s.busy = false → decode w = .ok i → mayDispatch s i = false →
      dutifulStep s = none) ∧
  (∀ s t : State, (s.inSymbol = true → prnLoaded s = true) → dutifulStep s = some (.next t) →
    t.inSymbol = true → prnLoaded t = true) ∧
  (∀ (s : State) (sel : Bool) (i : Nat), Inv s → (s.inSymbol = true → prnLoaded s = true) →
    dutifulStep s ≠ some (.fault (.unwrittenPrn sel i))) ∧
  (∀ (s : State) (w : Word) (i : Instr) (rest : List Input), s.inputs = .write 4 0 w :: rest → decode w = .ok i →
    (i = .fecEnc → dutifulStep s = some (step s)) ∧
    (i ≠ .fecEnc → s.busy = false → s.host.initDone = false → dutifulStep s = none)) ∧
  (∀ (s : State) (rest : List Input), s.inputs = .init :: rest →
    dutifulStep s = some (.next { s with inputs := rest, host := { s.host with initDone := true } })) ∧
  (∀ (s : State) (rest : List Input), s.inputs = .txInit :: rest → s.busy = true ∨ s.host.initDone = false →
    dutifulStep s = none) ∧
  (∀ (s : State) (rest : List Input), s.inputs = .txInit :: rest → s.busy = false → s.host.initDone = true →
    ∃ t, dutifulStep s = some (.next t) ∧ t = { s with inputs := rest, host := t.host } ∧
      t.host.initDone = true ∧ t.host.txInitDone = true ∧ transmitting t = false ∧ mayDispatch t .rawTx = true) ∧
  (∀ (s : State) (rest : List Input), s.inputs = .reset :: rest → s.busy = true →
    ∃ t, dutifulStep s = some (.next t) ∧
      ∀ i, i = .rawTx ∨ i = .rawCont ∨ i = .rawZero ∨ i = .rawEnd ∨ i = .txByte ∨ i = .txBuf → mayDispatch t i = false) ∧
  ∀ (s : State) (rest : List Input), Inv s → s.inputs = .reset :: rest → s.busy = false →
    ∃ t, dutifulStep s = some (.next t) ∧ t.host = s.host ∧ transmitting t = transmitting s

/-- A host access that is not a naturally aligned 32-bit word is refused, by name (R61). That alignment is judged on the offset,
REG_BASE being open, is the model's choice (log 34). -/
def Obligations.OddAccessesRefused : Prop :=
  ∀ (s : State) (bytes off : Nat) (m v : Word) (rest : List Input), bytes ≠ 4 ∨ off % 4 ≠ 0 →
    (s.inputs = .read bytes off :: rest → step s = .refused (.hostAccessRefused bytes off)) ∧
    (s.inputs = .write bytes off v :: rest → step s = .refused (.hostAccessRefused bytes off)) ∧
    (bytes = 4 → s.inputs = .poll off m v :: rest → step s = .refused (.hostAccessRefused 4 off))

/-! The host's accesses (10_state.md R23 to R33, 30_encoding.md R76). -/

/-- A read of STATUS returns every field in its bits, the phase by its code of R36, and 0 in the reserved ones; a write clears the flags
whose bit is 1 and changes no other field, busy or not; after reset STATUS is 0 (R26). That PHASE read while BUSY = 1 is the phase
of this very step, where R226 allows that of any step, is the model's choice (log 33). -/
def Obligations.StatusRegisterFields : Prop :=
  (∀ (s : State) (rest : List Input), s.inputs = .read 4 0x004 :: rest →
    ∃ v : Word, step s = .next { s with inputs := rest, reads := s.reads ++ [(0x004, v)] } ∧
      v.getLsbD 0 = s.busy ∧ v.getLsbD 1 = s.ill ∧ v.getLsbD 2 = s.ovr ∧ v.getLsbD 3 = s.range ∧
      v.extractLsb' 4 4 = 0 ∧ v.extractLsb' 12 4 = 0 ∧
      (s.phase, v.extractLsb' 8 4) ∈
        [(Phase.idle, 0#4), (.flushCmd, 1#4), (.flushPoll, 2#4), (.fifoFlush, 3#4), (.load, 4#4), (.start, 5#4),
         (.settlePoll, 6#4), (.refillWait, 7#4), (.refillQuery, 8#4), (.refillWrite, 9#4), (.endPoll, 10#4),
         (.endIdle, 11#4), (.symWait, 12#4), (.symFetch, 13#4)] ∧
      v.extractLsb' 16 8 = s.lastRStatus ∧ v.extractLsb' 24 8 = 0) ∧
  (∀ (s : State) (w : Word) (rest : List Input), s.inputs = .write 4 0x004 w :: rest →
    step s = .next { s with
      inputs := rest, ill := s.ill && !w.getLsbD 1, ovr := s.ovr && !w.getLsbD 2, range := s.range && !w.getLsbD 3 }) ∧
  statusWord State.reset = 0

/-- The argument registers are written at any time, busy or not, keep only their field's bits, and read back zero-extended; they
are 0 after reset (R25, R27, R28, R29). -/
def Obligations.ArgumentRegisters : Prop :=
  (∀ (s : State) (w : Word) (rest : List Input),
    (s.inputs = .write 4 0x008 w :: rest → step s = .next { s with inputs := rest, argByte := w.extractLsb' 0 8 }) ∧
    (s.inputs = .write 4 0x00C w :: rest → step s = .next { s with inputs := rest, argLen := w.extractLsb' 0 16 }) ∧
    (s.inputs = .write 4 0x010 w :: rest → step s = .next { s with inputs := rest, argAddr := w })) ∧
  (∀ (s : State) (rest : List Input),
    (s.inputs = .read 4 0x008 :: rest →
      step s = .next { s with inputs := rest, reads := s.reads ++ [(0x008, 0#24 ++ s.argByte)] }) ∧
    (s.inputs = .read 4 0x00C :: rest →
      step s = .next { s with inputs := rest, reads := s.reads ++ [(0x00C, 0#16 ++ s.argLen)] }) ∧
    (s.inputs = .read 4 0x010 :: rest →
      step s = .next { s with inputs := rest, reads := s.reads ++ [(0x010, s.argAddr)] })) ∧
  State.reset.argByte = 0 ∧ State.reset.argLen = 0 ∧ State.reset.argAddr = 0

/-- RESULT, PROGRESS and SYMIDX read as their fields and ignore writes; offsets outside the map read 0 and ignore writes; CMD
reads 0 (R24, R30, R31, R32, R76). That PROGRESS and SYMIDX read while BUSY = 1 are those of this very step, where R226 allows
those of any step, is the model's choice (log 33). -/
def Obligations.ReadOnlyAndReservedOffsets : Prop :=
  ∀ (s : State) (w : Word) (rest : List Input),
    (s.inputs = .read 4 0x000 :: rest → step s = .next { s with inputs := rest, reads := s.reads ++ [(0x000, 0)] }) ∧
    (s.inputs = .read 4 0x014 :: rest →
      step s = .next { s with inputs := rest, reads := s.reads ++ [(0x014, 0#24 ++ s.result)] }) ∧
    (s.inputs = .read 4 0x018 :: rest → ∃ v : Word,
      step s = .next { s with inputs := rest, reads := s.reads ++ [(0x018, v)] } ∧
        v.extractLsb' 0 16 = s.rem ∧ (v.extractLsb' 16 5).toNat = s.chip.val ∧ v.extractLsb' 21 11 = 0) ∧
    (s.inputs = .read 4 0x01C :: rest →
      step s = .next { s with inputs := rest, reads := s.reads ++ [(0x01C, 0#16 ++ s.symidx)] }) ∧
    (∀ off, off % 4 = 0 → (0x014 ≤ off ∧ off < 0x100) ∨ 0x300 ≤ off → s.inputs = .write 4 off w :: rest →
      step s = .next { s with inputs := rest }) ∧
    (∀ off, off % 4 = 0 → (0x020 ≤ off ∧ off < 0x100) ∨ 0x300 ≤ off → s.inputs = .read 4 off :: rest →
      step s = .next { s with inputs := rest, reads := s.reads ++ [(off, 0)] })

/-- While idle a PRN write stores bits [7:0] in its byte and leaves the other bytes of both patterns alone, and a read of a
written byte returns it zero-extended (R33). -/
def Obligations.PrnRegisters : Prop :=
  (∀ (s : State) (sel : Bool) (i : Fin 64) (w : Word) (rest : List Input),
    s.busy = false → s.inputs = .write 4 ((if sel then 0x200 else 0x100) + 4 * i.val) w :: rest →
      ∃ t, step s = .next t ∧ (t.prn sel)[i] = some (w.extractLsb' 0 8) ∧
        (∀ j : Fin 64, j ≠ i → (t.prn sel)[j] = (s.prn sel)[j]) ∧ t.prn (!sel) = s.prn (!sel) ∧
        t = { s with inputs := rest, prn0 := t.prn0, prn1 := t.prn1 }) ∧
  ∀ (s : State) (sel : Bool) (i : Fin 64) (b : Byte) (rest : List Input),
    (s.prn sel)[i] = some b → s.inputs = .read 4 ((if sel then 0x200 else 0x100) + 4 * i.val) :: rest →
      step s = .next { s with
        inputs := rest, reads := s.reads ++ [((if sel then 0x200 else 0x100) + 4 * i.val, 0#24 ++ b)] }

/-- A register read has no side effect: but for the queue, the record of reads and the free value an unwritten PRN byte takes, the
state is as before (R57, R63). -/
def Obligations.ReadsHaveNoSideEffect : Prop :=
  ∀ (s : State) (off : Nat) (rest : List Input), off % 4 = 0 → s.inputs = .read 4 off :: rest →
    ∃ n v, step s = .next { s with inputs := rest, draws := n, reads := s.reads ++ [(off, v)] }

/-- A payload byte the host overwrites during the operation is read as the old byte or the new one (R54; log 12). A host that
keeps its duties has no such move, and then no read is raced; every launch under such a host is a launch of the machine
(R54, R196). -/
def Obligations.RacedReadIsOldOrNew : Prop :=
  (∀ (s : State) (a : Word) (v : Byte) (rest : List Input),
    s.inputs = .memWrite a v :: rest → inBuffer s a.toNat = true →
      dutifulStep s = none) ∧
  (∀ s t : State, s.stale = [] → dutifulStep s = some (.next t) → t.stale = []) ∧
  (∀ s t : State, dutifulStep s = some (.next t) → step s = .next t) ∧
  (∀ (k : Nat) (s : State) (o : Host.Outcome State Fault Refusal),
    dutifulRun k s = some o → Host.Core.run core k s = o) ∧
  ∀ (s : State) (a : Word) (v : Byte) (rest : List Input),
    s.inputs = .memWrite a v :: rest → Memory.wf s.mem = true → s.stale = [] → inBuffer s a.toNat = true →
      ∃ t, step s = .next t ∧ Memory.wf t.mem = true ∧ Memory.read t.mem a.toNat = v ∧
        (∀ c, c ≠ a.toNat → Memory.read t.mem c = Memory.read s.mem c) ∧
        ∀ b u, memRead t a.toNat = .ok (b, u) → b = v ∨ b = Memory.read s.mem a.toNat

/-! Reset (10_state.md R41, 70_reset_and_hazards.md). -/

/-- Block reset, asserted at any time, gives every piece of block state its listed value, leaves host memory alone, and abandons
the operation (R41, R210). -/
def Obligations.BlockResetValues : Prop :=
  ∀ (s : State) (rest : List Input), s.inputs = .reset :: rest →
    ∃ t, step s = .next t ∧ statusWord t = 0 ∧ t.busy = false ∧ t.ill = false ∧ t.ovr = false ∧ t.range = false ∧
      t.phase = .idle ∧ t.lastRStatus = 0 ∧ t.argByte = 0 ∧ t.argLen = 0 ∧ t.argAddr = 0 ∧ t.result = 0 ∧
      progressWord t = 0 ∧ symidxWord t = 0 ∧ t.lByte = 0 ∧ t.lLen = 0 ∧ t.lAddr = 0 ∧ t.op = none ∧ t.chip = 0 ∧
      t.symidx = 0 ∧ t.rem = 0 ∧ t.src = .zero ∧ t.cw = 0 ∧ t.sb = 0 ∧ t.inFlight = none ∧ t.waitLeft = 0 ∧
      (∀ (sel : Bool) (i : Fin 64), (t.prn sel)[i] = none) ∧ t.mem = s.mem ∧ t.params = s.params

/-- With nothing to do the block waits: in phase IDLE, as after reset, a step with nothing queued changes nothing (R212). -/
def Obligations.IdleBlockWaits : Prop :=
  (∀ s : State, s.phase = .idle → s.inputs = [] → step s = .next s) ∧ step State.reset = .next State.reset

/-- Launched with any admissible instance, the hardware's own among them, the machine starts in its reset state, which meets the
controller's invariants and holds memory in canonical form; the hardware's own command bytes are distinct (R91). -/
def Obligations.ResetMeetsInvariants : Prop :=
  (∀ p : Params, State.launch p.toRawParams = .next (State.initial p) ∧
    Inv (State.initial p) ∧ RefillFitsInv (State.initial p) ∧ Memory.wf (State.initial p).mem = true) ∧
  State.reset = State.initial Config.params ∧ Config.params.strobeCode.distinct = true

/-! Whole-machine rules. -/

/-- Every step, of the host or of the block, keeps the controller's invariant (R35, R38, R119). -/
def Obligations.StepKeepsControllerInvariant : Prop :=
  ∀ s t : State, Inv s → step s = .next t → Inv t

/-- Every step keeps host memory in canonical form. -/
def Obligations.StepKeepsMemoryForm : Prop :=
  ∀ s t : State, Memory.wf s.mem = true → step s = .next t → Memory.wf t.mem = true

/-- No burst of the history is ever longer than 64 bytes (R95). -/
def Obligations.BurstsNeverExceedLimit : Prop :=
  ∀ s t : State, Inv s → s.history.all PortEvent.burstFits = true → step s = .next t →
    t.history.all PortEvent.burstFits = true

/-- No refill burst exceeds the free space reported by the status just before it (R112, R122). -/
def Obligations.RefillFitsReportedSpace : Prop :=
  ∀ s t : State, RefillFitsInv s → step s = .next t → RefillFitsInv t

/-- The history only grows: what is over stays, the event in progress stays and at most gets its status or more bytes, and every
strobe added carries one of the four commands the block sends. Block reset leaves a transaction in flight in the history, cut
after a prefix that may be any (log 17). No step changes the parameters (R78, R92, R94, R105, R210). -/
def Obligations.HistoryGrowsByFourCommands : Prop :=
  ∀ s t : State, Inv s → step s = .next t →
    t.params = s.params ∧
    (∃ done, t.past = s.past ++ done) ∧
    (∃ es, t.history = s.past ++ es ∧ es.all (PortEvent.sentCommand s.params) = true ∧
      ∀ e, s.openEvent = [e] → ∃ f later, es = f :: later ∧ e.becomes f) ∧
    ∀ rest txn, s.inputs = .reset :: rest → s.inFlight = some txn →
      ∃ n, n ≤ txn.size ∧ t.history = s.history ++ [.cut n]

/-- No move of the host stops, alters or moves the operation in progress; only block reset does (R25, R125, R183). -/
def Obligations.HostCannotDisturbOperation : Prop :=
  ∀ (s t : State) (x : Input) (rest : List Input),
    s.inputs = x :: rest → x ≠ .block → x ≠ .reset → s.busy = true → step s = .next t →
      t = { s with
        argByte := t.argByte, argLen := t.argLen, argAddr := t.argAddr, ill := t.ill, ovr := t.ovr, range := t.range,
        mem := t.mem, stale := t.stale, inputs := t.inputs, draws := t.draws, reads := t.reads, host := t.host }

/-- RESULT changes only by FEC_ENC dispatched while idle, or by block reset (R30, R143). -/
def Obligations.OnlyFecEncWritesResult : Prop :=
  ∀ s t : State, step s = .next t → t.result ≠ s.result →
    (∃ rest, s.inputs = .reset :: rest) ∨
    ∃ w rest, s.inputs = .write 4 0 w :: rest ∧ w.extractLsb' 0 8 = 0x01#8 ∧ s.busy = false

/-- An error flag that is 1 becomes 0 only by a write of 1 to its bit of STATUS or by block reset (R187). -/
def Obligations.ErrorFlagsAreSticky : Prop :=
  ∀ s t : State, step s = .next t → (∀ rest, s.inputs ≠ .reset :: rest) →
    (s.ill = true → t.ill = false → ∃ w rest, s.inputs = .write 4 4 w :: rest ∧ w.getLsbD 1 = true) ∧
    (s.ovr = true → t.ovr = false → ∃ w rest, s.inputs = .write 4 4 w :: rest ∧ w.getLsbD 2 = true) ∧
    (s.range = true → t.range = false → ∃ w rest, s.inputs = .write 4 4 w :: rest ∧ w.getLsbD 3 = true)

/-- A transceiver side that never returns END_STATUS holds the block in the end poll with BUSY = 1: there is no timeout (R118, R124). -/
def Obligations.EndPollHasNoBound : Prop :=
  ∀ (s : State) (bs : List Byte) (rest : List (Option Byte)),
    s.inputs = [] → s.phase = .endPoll → s.statuses = bs.map some ++ rest → (∀ b ∈ bs, b ≠ s.params.endStatus) →
      ∃ t, Host.Core.run core bs.length s = .next t ∧ t.phase = .endPoll ∧ t.busy = s.busy ∧ t.op = s.op ∧
        t.past = s.past ++ bs.map (fun b => .strobe s.params.strobeCode.nop (some b))

/-! Whole operations. -/

/-- FLUSH_IDLE runs to completion when a status with the busy bits clear comes: one GO_IDLE, then NOPs up to and with the first
such status (R97, R111, R114). -/
def Obligations.FlushIdleRuns : Prop :=
  ∀ (s : State) (b0 b1 : Byte) (bs : List Byte) (rest : List (Option Byte)),
    Inv s → s.busy = false → s.inputs = [] → s.statuses = some b0 :: (bs.map some ++ some b1 :: rest) →
      (∀ b ∈ bs, b &&& s.params.idleMask ≠ 0) → b1 &&& s.params.idleMask = 0 →
      ∃ s1 t, exec .flushIdle s = .next s1 ∧ runsTo s1 t ∧ t.lastRStatus = b1 ∧ progressWord t = 0 ∧
        t.history = s.history ++ .strobe s.params.strobeCode.goIdle (some b0) ::
          (bs.map (fun b => .strobe s.params.strobeCode.nop (some b)) ++ [.strobe s.params.strobeCode.nop (some b1)])

/-- RAW_END runs to completion when END_STATUS comes: NOPs up to and with the first END_STATUS, then one GO_IDLE (R118). -/
def Obligations.RawEndRuns : Prop :=
  ∀ (s : State) (b2 : Byte) (bs : List Byte) (rest : List (Option Byte)),
    Inv s → s.busy = false → s.inputs = [] →
      s.statuses = bs.map some ++ some s.params.endStatus :: some b2 :: rest → (∀ b ∈ bs, b ≠ s.params.endStatus) →
      ∃ s1 t, exec .rawEnd s = .next s1 ∧ runsTo s1 t ∧ t.lastRStatus = b2 ∧
        t.history = s.history ++ (bs.map (fun b => .strobe s.params.strobeCode.nop (some b)) ++
          [.strobe s.params.strobeCode.nop (some s.params.endStatus), .strobe s.params.strobeCode.goIdle (some b2)])

/-- For `L ≤ 64` RAW_TX, every strobe answered and every byte taken with no hold, issues exactly one burst, of length L, and one
START_TX, and never enters the refill loop (R97, R115, R121). -/
def Obligations.RawTxShortRuns : Prop :=
  ∀ (s : State) (b0 b1 b2 b3 : Byte) (bs : List Byte) (rest : List (Option Byte)) (ready : List Bool),
    Inv s → s.busy = false → s.inputs = [] → s.argLen.toNat ≤ 64 → s.argAddr.toNat + s.argLen.toNat ≤ 2 ^ 32 →
      bufferReadable s s.argAddr.toNat s.argLen.toNat →
      s.statuses = some b0 :: (bs.map some ++ some b1 :: some b2 :: some b3 :: rest) →
      s.readies = List.replicate s.argLen.toNat true ++ ready →
      (∀ b ∈ bs, b &&& s.params.idleMask ≠ 0) → b1 &&& s.params.idleMask = 0 →
      ∃ s1 t, exec .rawTx s = .next s1 ∧ runsTo s1 t ∧
        t.history = s.history ++ .strobe s.params.strobeCode.goIdle (some b0) ::
          (bs.map (fun b => .strobe s.params.strobeCode.nop (some b)) ++
            [.strobe s.params.strobeCode.nop (some b1), .strobe s.params.strobeCode.flushTx (some b2),
             .burst (bufferBytes s s.argAddr.toNat s.argLen.toNat), .strobe s.params.strobeCode.startTx (some b3)])

/-- Whatever the statuses and whenever the transceiver side accepts, the FIFO-write stream of a completed operation is its
buffer, LEN zeros, or nothing; RAW_TX and RAW_CONT start only where their range stays inside the address space (R123, R184). -/
def Obligations.StreamIsTheBuffer : Prop :=
  ∀ (s s1 t : State) (k : Nat),
    Inv s → s.busy = false → s.inputs = [] → s.stale = [] →
      Host.Core.run core k s1 = .next t → t.busy = false →
      (s.argLen.toNat = 0 ∨ s.argAddr.toNat + s.argLen.toNat ≤ 2 ^ 32 →
        exec .rawTx s = .next s1 ∨ exec .rawCont s = .next s1 →
        fifoStream (eventsSince s.history.length t) = bufferBytes s s.argAddr.toNat s.argLen.toNat) ∧
      (exec .rawZero s = .next s1 →
        fifoStream (eventsSince s.history.length t) = List.replicate s.argLen.toNat 0) ∧
      (exec .flushIdle s = .next s1 ∨ exec .rawEnd s = .next s1 →
        fifoStream (eventsSince s.history.length t) = [])

/-- RAW_TX, RAW_CONT and RAW_ZERO run to completion when every strobe is answered by a status that reports free space and, for
RAW_TX, ends the polls it has (the settle poll only for `L > 64`), and write their whole stream; RAW_ZERO whatever ARG_ADDR
holds (R97, R98, R99, R115, R116, R117, R124). -/
def Obligations.StreamOperationsRun : Prop :=
  ∀ (s : State) (b : Byte) (i : Instr),
    Inv s → s.busy = false → s.inputs = [] → 0 < (b &&& s.params.freeMask).toNat →
      answersWith s (List.replicate (s.argLen.toNat + 5) (some b)) s.argLen.toNat →
      (i = .rawTx → b &&& s.params.idleMask = 0 ∧ (64 < s.argLen.toNat → b &&& s.params.settleMask = 0)) →
      (i = .rawZero ∨ (i = .rawTx ∨ i = .rawCont) ∧ s.argAddr.toNat + s.argLen.toNat ≤ 2 ^ 32 ∧
        bufferReadable s s.argAddr.toNat s.argLen.toNat) →
      ∃ s1 t, exec i s = .next s1 ∧ runsTo s1 t ∧ t.rem = 0 ∧ t.result = s.result ∧
        fifoStream (eventsSince s.history.length t) =
          (if i = .rawZero then List.replicate s.argLen.toNat 0
           else bufferBytes s s.argAddr.toNat s.argLen.toNat)

/-- A symbol's stream is written in order whatever the statuses: TX_BYTE and each fetch of TX_BUF start it with nothing written,
every step of the block keeps what is written a beginning of the symbol's stream, and the symbol ends with all of it written
(R160, R164, R165). -/
def Obligations.SymbolStreamInOrder : Prop :=
  (∀ s t : State, Inv s → s.busy = false → prnLoaded s = true → exec .txByte s = .next t →
    SymbolStreamInv s.history.length t) ∧
  (∀ s t : State, Inv s → s.inputs = [] → s.phase = .symFetch → prnLoaded s = true → step s = .next t →
    SymbolStreamInv s.history.length t) ∧
  ∀ (base : Nat) (s t : State), SymbolStreamInv base s → s.inputs = [] → step s = .next t →
    SymbolStreamInv base t ∨
      (s.phase = .endIdle ∧ (t.phase = .idle ∨ t.phase = .symWait) ∧
        fifoStream (eventsSince base t) = symbolStream s s.sb)

/-- TX_BYTE runs to completion when its strobes are answered by a status that ends the idle poll and reports free space, its end
poll by END_STATUS and its last GO_IDLE by any status, and writes exactly the 1920 bytes of its symbol; RESULT is not written
(R97, R99, R101, R164, R165). -/
def Obligations.TxByteRuns : Prop :=
  ∀ (s : State) (b g : Byte),
    Inv s → s.busy = false → s.inputs = [] → prnLoaded s = true →
      b &&& s.params.idleMask = 0 → 0 < (b &&& s.params.freeMask).toNat →
      answersWith s (symbolAnswers (b &&& s.params.freeMask).toNat b s.params.endStatus g) 1920 →
      ∃ s1 t, exec .txByte s = .next s1 ∧ runsTo s1 t ∧ t.chip.val = 29 ∧ t.rem = 0 ∧ t.symidx = 0 ∧ t.lastRStatus = g ∧
        t.result = s.result ∧ fifoStream (eventsSince s.history.length t) = symbolStream s s.argByte

/-- TX_BUF runs to completion when the strobes of each symbol are answered so, and writes the symbols of its payload bytes one after another; it ends at
its last symbol's index (R167, R168). -/
def Obligations.TxBufRuns : Prop :=
  ∀ (s : State) (b g : Byte),
    Inv s → s.busy = false → s.inputs = [] → prnLoaded s = true →
      b &&& s.params.idleMask = 0 → 0 < (b &&& s.params.freeMask).toNat →
      s.argAddr.toNat + s.argLen.toNat ≤ 2 ^ 32 → bufferReadable s s.argAddr.toNat s.argLen.toNat →
      answersWith s
        (List.replicate s.argLen.toNat (symbolAnswers (b &&& s.params.freeMask).toNat b s.params.endStatus g)).flatten
        (1920 * s.argLen.toNat) →
      ∃ s1 t, exec .txBuf s = .next s1 ∧ runsTo s1 t ∧ t.result = s.result ∧
        (0 < s.argLen.toNat → t.symidx.toNat + 1 = s.argLen.toNat) ∧
        fifoStream (eventsSince s.history.length t) =
          (List.range s.argLen.toNat).flatMap (fun i => symbolStream s (Memory.read s.mem (s.argAddr.toNat + i)))
end

