-- ==== Sys2Proof/Laws/Memory.lean ====
section
/-! SUPPORT. The laws of host memory: a write is read back, leaves every other byte alone, and keeps the canonical form. -/

namespace Sys2Proof.Machine

/-- Below the first address of a canonical memory nothing is listed. -/
theorem Memory.read_below {lo a : Nat} {m : List Host.Cell} (h : Memory.wfFrom lo m = true) (ha : a < lo) :
    Memory.read m a = Config.unlistedByte := by
  induction m generalizing lo with
  | nil => rfl
  | cons c m ih =>
    simp only [Memory.wfFrom, Bool.and_eq_true, decide_eq_true_eq, bne_iff_ne] at h
    have hne : c.1 ≠ a := by omega
    simp only [Memory.read, if_neg hne]
    exact ih h.2 (by omega)

/-- A byte written is read back. -/
theorem Memory.read_write_same {lo : Nat} {m : List Host.Cell} (h : Memory.wfFrom lo m = true) (a : Nat) (v : Byte) :
    Memory.read (Memory.write m a v) a = v := by
  induction m generalizing lo with
  | nil => by_cases hv : v = Config.unlistedByte <;> simp [Memory.write, Memory.read, hv]
  | cons c m ih =>
    have hw := h
    simp only [Memory.wfFrom, Bool.and_eq_true, decide_eq_true_eq, bne_iff_ne] at h
    by_cases h1 : a < c.1
    · by_cases hv : v = Config.unlistedByte
      · have hne : c.1 ≠ a := by omega
        have hb := Memory.read_below h.2 (a := a) (by omega)
        simp [Memory.write, Memory.read, h1, hv, hne, hb]
      · simp [Memory.write, Memory.read, h1, hv]
    · by_cases h2 : a = c.1
      · by_cases hv : v = Config.unlistedByte
        · have hb := Memory.read_below h.2 (a := a) (by omega)
          subst h2
          simp [Memory.write, hv, hb]
        · subst h2
          simp [Memory.write, Memory.read, hv]
      · have hne : c.1 ≠ a := fun e => h2 e.symm
        simp only [Memory.write, if_neg h1, if_neg h2, Memory.read, if_neg hne]
        exact ih h.2

/-- A write leaves every other byte alone. -/
theorem Memory.read_write_other (m : List Host.Cell) {a b : Nat} (v : Byte) (hab : b ≠ a) :
    Memory.read (Memory.write m a v) b = Memory.read m b := by
  have hba : ¬ a = b := fun e => hab e.symm
  induction m with
  | nil => by_cases hv : v = Config.unlistedByte <;> simp [Memory.write, Memory.read, hv, hba]
  | cons c m ih =>
    by_cases h1 : a < c.1
    · by_cases hv : v = Config.unlistedByte <;> simp [Memory.write, Memory.read, h1, hv, hba]
    · by_cases h2 : a = c.1
      · have hcb : ¬ c.1 = b := fun e => hba (h2.trans e)
        by_cases hv : v = Config.unlistedByte
        · simp only [Memory.write, if_neg h1, if_pos h2, if_pos hv, Memory.read, if_neg hcb]
        · simp only [Memory.write, if_neg h1, if_pos h2, if_neg hv, Memory.read, if_neg hcb, if_neg hba]
      · simp only [Memory.write, if_neg h1, if_neg h2, Memory.read, ih]

/-- A write inside the address space keeps the canonical form. -/
theorem Memory.wfFrom_write {lo : Nat} {m : List Host.Cell} (h : Memory.wfFrom lo m = true) {a : Nat} (hlo : lo ≤ a)
    (ha : a < Config.hostSpace) (v : Byte) : Memory.wfFrom lo (Memory.write m a v) = true := by
  induction m generalizing lo with
  | nil => by_cases hv : v = Config.unlistedByte <;> simp [Memory.write, Memory.wfFrom, hv, hlo, ha]
  | cons c m ih =>
    have hw := h
    simp only [Memory.wfFrom, Bool.and_eq_true, decide_eq_true_eq, bne_iff_ne] at h
    obtain ⟨⟨⟨hlo1, hsp⟩, hne⟩, htail⟩ := h
    have weaken : ∀ {l1 l2 : Nat} {n : List Host.Cell}, l2 ≤ l1 → Memory.wfFrom l1 n = true → Memory.wfFrom l2 n = true := by
      intro l1 l2 n hl hn
      cases n with
      | nil => rfl
      | cons d n =>
        simp only [Memory.wfFrom, Bool.and_eq_true, decide_eq_true_eq, bne_iff_ne] at hn ⊢
        exact ⟨⟨⟨by omega, hn.1.1.2⟩, hn.1.2⟩, hn.2⟩
    by_cases h1 : a < c.1
    · by_cases hv : v = Config.unlistedByte
      · simpa [Memory.write, h1, hv] using hw
      · have : a + 1 ≤ c.1 := by omega
        simp [Memory.write, Memory.wfFrom, h1, hv, hlo, ha, this, hsp, hne, htail]
    · by_cases h2 : a = c.1
      · by_cases hv : v = Config.unlistedByte
        · simp only [Memory.write, if_neg h1, if_pos h2, if_pos hv]
          exact weaken (by omega) htail
        · subst h2
          simp [Memory.write, Memory.wfFrom, hv, hlo, ha, htail]
      · simp only [Memory.write, if_neg h1, if_neg h2, Memory.wfFrom, Bool.and_eq_true, decide_eq_true_eq, bne_iff_ne]
        exact ⟨⟨⟨hlo1, hsp⟩, hne⟩, ih htail (by omega)⟩

/-- A host write to memory keeps the canonical form. -/
theorem Memory.wf_hostMemWrite {s : State} (h : Memory.wf s.mem = true) (a : Word) (v : Byte) :
    Memory.wf (hostMemWrite a v s).mem = true :=
  Memory.wfFrom_write h (Nat.zero_le _) (by simpa [Config.hostSpace] using a.isLt) v

/-- The memory of the reset state is in canonical form. -/
theorem Memory.wf_reset : Memory.wf State.reset.mem = true := rfl

end Sys2Proof.Machine
end

