-- ==== Sys2Proof/Laws/State.lean ====
section
/-! SUPPORT. What each named update of a state does to each field: one lemma per field per update, true by rfl. -/

namespace Sys2Proof.Machine

/-! The fields after `latchOperands`. -/

@[simp] theorem latchOperands_params (s : State) : (latchOperands s).params = s.params := rfl
@[simp] theorem latchOperands_argByte (s : State) : (latchOperands s).argByte = s.argByte := rfl
@[simp] theorem latchOperands_argLen (s : State) : (latchOperands s).argLen = s.argLen := rfl
@[simp] theorem latchOperands_argAddr (s : State) : (latchOperands s).argAddr = s.argAddr := rfl
@[simp] theorem latchOperands_result (s : State) : (latchOperands s).result = s.result := rfl
@[simp] theorem latchOperands_busy (s : State) : (latchOperands s).busy = s.busy := rfl
@[simp] theorem latchOperands_ill (s : State) : (latchOperands s).ill = s.ill := rfl
@[simp] theorem latchOperands_ovr (s : State) : (latchOperands s).ovr = s.ovr := rfl
@[simp] theorem latchOperands_range (s : State) : (latchOperands s).range = s.range := rfl
@[simp] theorem latchOperands_lastRStatus (s : State) : (latchOperands s).lastRStatus = s.lastRStatus := rfl
@[simp] theorem latchOperands_lByte (s : State) : (latchOperands s).lByte = s.argByte := rfl
@[simp] theorem latchOperands_lLen (s : State) : (latchOperands s).lLen = s.argLen := rfl
@[simp] theorem latchOperands_lAddr (s : State) : (latchOperands s).lAddr = s.argAddr := rfl
@[simp] theorem latchOperands_op (s : State) : (latchOperands s).op = s.op := rfl
@[simp] theorem latchOperands_phase (s : State) : (latchOperands s).phase = s.phase := rfl
@[simp] theorem latchOperands_chip (s : State) : (latchOperands s).chip = s.chip := rfl
@[simp] theorem latchOperands_symidx (s : State) : (latchOperands s).symidx = s.symidx := rfl
@[simp] theorem latchOperands_rem (s : State) : (latchOperands s).rem = s.rem := rfl
@[simp] theorem latchOperands_src (s : State) : (latchOperands s).src = s.src := rfl
@[simp] theorem latchOperands_issued (s : State) : (latchOperands s).issued = s.issued := rfl
@[simp] theorem latchOperands_burstLeft (s : State) : (latchOperands s).burstLeft = s.burstLeft := rfl
@[simp] theorem latchOperands_burstSent (s : State) : (latchOperands s).burstSent = s.burstSent := rfl
@[simp] theorem latchOperands_waitLeft (s : State) : (latchOperands s).waitLeft = s.waitLeft := rfl
@[simp] theorem latchOperands_cw (s : State) : (latchOperands s).cw = s.cw := rfl
@[simp] theorem latchOperands_sb (s : State) : (latchOperands s).sb = s.sb := rfl
@[simp] theorem latchOperands_prn0 (s : State) : (latchOperands s).prn0 = s.prn0 := rfl
@[simp] theorem latchOperands_prn1 (s : State) : (latchOperands s).prn1 = s.prn1 := rfl
@[simp] theorem latchOperands_mem (s : State) : (latchOperands s).mem = s.mem := rfl
@[simp] theorem latchOperands_stale (s : State) : (latchOperands s).stale = s.stale := rfl
@[simp] theorem latchOperands_inputs (s : State) : (latchOperands s).inputs = s.inputs := rfl
@[simp] theorem latchOperands_statuses (s : State) : (latchOperands s).statuses = s.statuses := rfl
@[simp] theorem latchOperands_readies (s : State) : (latchOperands s).readies = s.readies := rfl
@[simp] theorem latchOperands_draws (s : State) : (latchOperands s).draws = s.draws := rfl
@[simp] theorem latchOperands_past (s : State) : (latchOperands s).past = s.past := rfl
@[simp] theorem latchOperands_reads (s : State) : (latchOperands s).reads = s.reads := rfl
@[simp] theorem latchOperands_host (s : State) : (latchOperands s).host = s.host := rfl

/-! The fields after `beginOp`. -/

@[simp] theorem beginOp_params (i : Instr) (s : State) : (beginOp i s).params = s.params := rfl
@[simp] theorem beginOp_argByte (i : Instr) (s : State) : (beginOp i s).argByte = s.argByte := rfl
@[simp] theorem beginOp_argLen (i : Instr) (s : State) : (beginOp i s).argLen = s.argLen := rfl
@[simp] theorem beginOp_argAddr (i : Instr) (s : State) : (beginOp i s).argAddr = s.argAddr := rfl
@[simp] theorem beginOp_result (i : Instr) (s : State) : (beginOp i s).result = s.result := rfl
@[simp] theorem beginOp_busy (i : Instr) (s : State) : (beginOp i s).busy = true := rfl
@[simp] theorem beginOp_ill (i : Instr) (s : State) : (beginOp i s).ill = s.ill := rfl
@[simp] theorem beginOp_ovr (i : Instr) (s : State) : (beginOp i s).ovr = s.ovr := rfl
@[simp] theorem beginOp_range (i : Instr) (s : State) : (beginOp i s).range = s.range := rfl
@[simp] theorem beginOp_lastRStatus (i : Instr) (s : State) : (beginOp i s).lastRStatus = s.lastRStatus := rfl
@[simp] theorem beginOp_lByte (i : Instr) (s : State) : (beginOp i s).lByte = s.lByte := rfl
@[simp] theorem beginOp_lLen (i : Instr) (s : State) : (beginOp i s).lLen = s.lLen := rfl
@[simp] theorem beginOp_lAddr (i : Instr) (s : State) : (beginOp i s).lAddr = s.lAddr := rfl
@[simp] theorem beginOp_op (i : Instr) (s : State) : (beginOp i s).op = some i := rfl
@[simp] theorem beginOp_phase (i : Instr) (s : State) : (beginOp i s).phase = s.phase := rfl
@[simp] theorem beginOp_chip (i : Instr) (s : State) : (beginOp i s).chip = s.chip := rfl
@[simp] theorem beginOp_symidx (i : Instr) (s : State) : (beginOp i s).symidx = s.symidx := rfl
@[simp] theorem beginOp_rem (i : Instr) (s : State) : (beginOp i s).rem = s.rem := rfl
@[simp] theorem beginOp_src (i : Instr) (s : State) : (beginOp i s).src = s.src := rfl
@[simp] theorem beginOp_issued (i : Instr) (s : State) : (beginOp i s).issued = s.issued := rfl
@[simp] theorem beginOp_burstLeft (i : Instr) (s : State) : (beginOp i s).burstLeft = s.burstLeft := rfl
@[simp] theorem beginOp_burstSent (i : Instr) (s : State) : (beginOp i s).burstSent = s.burstSent := rfl
@[simp] theorem beginOp_waitLeft (i : Instr) (s : State) : (beginOp i s).waitLeft = s.waitLeft := rfl
@[simp] theorem beginOp_cw (i : Instr) (s : State) : (beginOp i s).cw = s.cw := rfl
@[simp] theorem beginOp_sb (i : Instr) (s : State) : (beginOp i s).sb = s.sb := rfl
@[simp] theorem beginOp_prn0 (i : Instr) (s : State) : (beginOp i s).prn0 = s.prn0 := rfl
@[simp] theorem beginOp_prn1 (i : Instr) (s : State) : (beginOp i s).prn1 = s.prn1 := rfl
@[simp] theorem beginOp_mem (i : Instr) (s : State) : (beginOp i s).mem = s.mem := rfl
@[simp] theorem beginOp_stale (i : Instr) (s : State) : (beginOp i s).stale = s.stale := rfl
@[simp] theorem beginOp_inputs (i : Instr) (s : State) : (beginOp i s).inputs = s.inputs := rfl
@[simp] theorem beginOp_statuses (i : Instr) (s : State) : (beginOp i s).statuses = s.statuses := rfl
@[simp] theorem beginOp_readies (i : Instr) (s : State) : (beginOp i s).readies = s.readies := rfl
@[simp] theorem beginOp_draws (i : Instr) (s : State) : (beginOp i s).draws = s.draws := rfl
@[simp] theorem beginOp_past (i : Instr) (s : State) : (beginOp i s).past = s.past := rfl
@[simp] theorem beginOp_reads (i : Instr) (s : State) : (beginOp i s).reads = s.reads := rfl
@[simp] theorem beginOp_host (i : Instr) (s : State) : (beginOp i s).host = s.host := rfl

/-! The fields after `complete`. -/

@[simp] theorem complete_params (s : State) : (complete s).params = s.params := rfl
@[simp] theorem complete_argByte (s : State) : (complete s).argByte = s.argByte := rfl
@[simp] theorem complete_argLen (s : State) : (complete s).argLen = s.argLen := rfl
@[simp] theorem complete_argAddr (s : State) : (complete s).argAddr = s.argAddr := rfl
@[simp] theorem complete_result (s : State) : (complete s).result = s.result := rfl
@[simp] theorem complete_busy (s : State) : (complete s).busy = false := rfl
@[simp] theorem complete_ill (s : State) : (complete s).ill = s.ill := rfl
@[simp] theorem complete_ovr (s : State) : (complete s).ovr = s.ovr := rfl
@[simp] theorem complete_range (s : State) : (complete s).range = s.range := rfl
@[simp] theorem complete_lastRStatus (s : State) : (complete s).lastRStatus = s.lastRStatus := rfl
@[simp] theorem complete_lByte (s : State) : (complete s).lByte = s.lByte := rfl
@[simp] theorem complete_lLen (s : State) : (complete s).lLen = s.lLen := rfl
@[simp] theorem complete_lAddr (s : State) : (complete s).lAddr = s.lAddr := rfl
@[simp] theorem complete_op (s : State) : (complete s).op = none := rfl
@[simp] theorem complete_phase (s : State) : (complete s).phase = .idle := rfl
@[simp] theorem complete_chip (s : State) : (complete s).chip = s.chip := rfl
@[simp] theorem complete_symidx (s : State) : (complete s).symidx = s.symidx := rfl
@[simp] theorem complete_rem (s : State) : (complete s).rem = s.rem := rfl
@[simp] theorem complete_src (s : State) : (complete s).src = s.src := rfl
@[simp] theorem complete_issued (s : State) : (complete s).issued = s.issued := rfl
@[simp] theorem complete_burstLeft (s : State) : (complete s).burstLeft = s.burstLeft := rfl
@[simp] theorem complete_burstSent (s : State) : (complete s).burstSent = s.burstSent := rfl
@[simp] theorem complete_waitLeft (s : State) : (complete s).waitLeft = s.waitLeft := rfl
@[simp] theorem complete_cw (s : State) : (complete s).cw = s.cw := rfl
@[simp] theorem complete_sb (s : State) : (complete s).sb = s.sb := rfl
@[simp] theorem complete_prn0 (s : State) : (complete s).prn0 = s.prn0 := rfl
@[simp] theorem complete_prn1 (s : State) : (complete s).prn1 = s.prn1 := rfl
@[simp] theorem complete_mem (s : State) : (complete s).mem = s.mem := rfl
@[simp] theorem complete_stale (s : State) : (complete s).stale = [] := rfl
@[simp] theorem complete_inputs (s : State) : (complete s).inputs = s.inputs := rfl
@[simp] theorem complete_statuses (s : State) : (complete s).statuses = s.statuses := rfl
@[simp] theorem complete_readies (s : State) : (complete s).readies = s.readies := rfl
@[simp] theorem complete_draws (s : State) : (complete s).draws = s.draws := rfl
@[simp] theorem complete_past (s : State) : (complete s).past = s.past := rfl
@[simp] theorem complete_reads (s : State) : (complete s).reads = s.reads := rfl
@[simp] theorem complete_host (s : State) : (complete s).host = s.host := rfl

/-! The fields after `record`. -/

@[simp] theorem record_params (e : PortEvent) (s : State) : (record e s).params = s.params := rfl
@[simp] theorem record_argByte (e : PortEvent) (s : State) : (record e s).argByte = s.argByte := rfl
@[simp] theorem record_argLen (e : PortEvent) (s : State) : (record e s).argLen = s.argLen := rfl
@[simp] theorem record_argAddr (e : PortEvent) (s : State) : (record e s).argAddr = s.argAddr := rfl
@[simp] theorem record_result (e : PortEvent) (s : State) : (record e s).result = s.result := rfl
@[simp] theorem record_busy (e : PortEvent) (s : State) : (record e s).busy = s.busy := rfl
@[simp] theorem record_ill (e : PortEvent) (s : State) : (record e s).ill = s.ill := rfl
@[simp] theorem record_ovr (e : PortEvent) (s : State) : (record e s).ovr = s.ovr := rfl
@[simp] theorem record_range (e : PortEvent) (s : State) : (record e s).range = s.range := rfl
@[simp] theorem record_lastRStatus (e : PortEvent) (s : State) : (record e s).lastRStatus = s.lastRStatus := rfl
@[simp] theorem record_lByte (e : PortEvent) (s : State) : (record e s).lByte = s.lByte := rfl
@[simp] theorem record_lLen (e : PortEvent) (s : State) : (record e s).lLen = s.lLen := rfl
@[simp] theorem record_lAddr (e : PortEvent) (s : State) : (record e s).lAddr = s.lAddr := rfl
@[simp] theorem record_op (e : PortEvent) (s : State) : (record e s).op = s.op := rfl
@[simp] theorem record_phase (e : PortEvent) (s : State) : (record e s).phase = s.phase := rfl
@[simp] theorem record_chip (e : PortEvent) (s : State) : (record e s).chip = s.chip := rfl
@[simp] theorem record_symidx (e : PortEvent) (s : State) : (record e s).symidx = s.symidx := rfl
@[simp] theorem record_rem (e : PortEvent) (s : State) : (record e s).rem = s.rem := rfl
@[simp] theorem record_src (e : PortEvent) (s : State) : (record e s).src = s.src := rfl
@[simp] theorem record_issued (e : PortEvent) (s : State) : (record e s).issued = s.issued := rfl
@[simp] theorem record_burstLeft (e : PortEvent) (s : State) : (record e s).burstLeft = s.burstLeft := rfl
@[simp] theorem record_burstSent (e : PortEvent) (s : State) : (record e s).burstSent = s.burstSent := rfl
@[simp] theorem record_waitLeft (e : PortEvent) (s : State) : (record e s).waitLeft = s.waitLeft := rfl
@[simp] theorem record_cw (e : PortEvent) (s : State) : (record e s).cw = s.cw := rfl
@[simp] theorem record_sb (e : PortEvent) (s : State) : (record e s).sb = s.sb := rfl
@[simp] theorem record_prn0 (e : PortEvent) (s : State) : (record e s).prn0 = s.prn0 := rfl
@[simp] theorem record_prn1 (e : PortEvent) (s : State) : (record e s).prn1 = s.prn1 := rfl
@[simp] theorem record_mem (e : PortEvent) (s : State) : (record e s).mem = s.mem := rfl
@[simp] theorem record_stale (e : PortEvent) (s : State) : (record e s).stale = s.stale := rfl
@[simp] theorem record_inputs (e : PortEvent) (s : State) : (record e s).inputs = s.inputs := rfl
@[simp] theorem record_statuses (e : PortEvent) (s : State) : (record e s).statuses = s.statuses := rfl
@[simp] theorem record_readies (e : PortEvent) (s : State) : (record e s).readies = s.readies := rfl
@[simp] theorem record_draws (e : PortEvent) (s : State) : (record e s).draws = s.draws := rfl
@[simp] theorem record_past (e : PortEvent) (s : State) : (record e s).past = s.past ++ [e] := rfl
@[simp] theorem record_reads (e : PortEvent) (s : State) : (record e s).reads = s.reads := rfl
@[simp] theorem record_host (e : PortEvent) (s : State) : (record e s).host = s.host := rfl

/-! The fields after `issue`. -/

@[simp] theorem issue_params (s : State) : (issue s).params = s.params := rfl
@[simp] theorem issue_argByte (s : State) : (issue s).argByte = s.argByte := rfl
@[simp] theorem issue_argLen (s : State) : (issue s).argLen = s.argLen := rfl
@[simp] theorem issue_argAddr (s : State) : (issue s).argAddr = s.argAddr := rfl
@[simp] theorem issue_result (s : State) : (issue s).result = s.result := rfl
@[simp] theorem issue_busy (s : State) : (issue s).busy = s.busy := rfl
@[simp] theorem issue_ill (s : State) : (issue s).ill = s.ill := rfl
@[simp] theorem issue_ovr (s : State) : (issue s).ovr = s.ovr := rfl
@[simp] theorem issue_range (s : State) : (issue s).range = s.range := rfl
@[simp] theorem issue_lastRStatus (s : State) : (issue s).lastRStatus = s.lastRStatus := rfl
@[simp] theorem issue_lByte (s : State) : (issue s).lByte = s.lByte := rfl
@[simp] theorem issue_lLen (s : State) : (issue s).lLen = s.lLen := rfl
@[simp] theorem issue_lAddr (s : State) : (issue s).lAddr = s.lAddr := rfl
@[simp] theorem issue_op (s : State) : (issue s).op = s.op := rfl
@[simp] theorem issue_phase (s : State) : (issue s).phase = s.phase := rfl
@[simp] theorem issue_chip (s : State) : (issue s).chip = s.chip := rfl
@[simp] theorem issue_symidx (s : State) : (issue s).symidx = s.symidx := rfl
@[simp] theorem issue_rem (s : State) : (issue s).rem = s.rem := rfl
@[simp] theorem issue_src (s : State) : (issue s).src = s.src := rfl
@[simp] theorem issue_issued (s : State) : (issue s).issued = true := rfl
@[simp] theorem issue_burstLeft (s : State) : (issue s).burstLeft = s.burstLeft := rfl
@[simp] theorem issue_burstSent (s : State) : (issue s).burstSent = s.burstSent := rfl
@[simp] theorem issue_waitLeft (s : State) : (issue s).waitLeft = s.waitLeft := rfl
@[simp] theorem issue_cw (s : State) : (issue s).cw = s.cw := rfl
@[simp] theorem issue_sb (s : State) : (issue s).sb = s.sb := rfl
@[simp] theorem issue_prn0 (s : State) : (issue s).prn0 = s.prn0 := rfl
@[simp] theorem issue_prn1 (s : State) : (issue s).prn1 = s.prn1 := rfl
@[simp] theorem issue_mem (s : State) : (issue s).mem = s.mem := rfl
@[simp] theorem issue_stale (s : State) : (issue s).stale = s.stale := rfl
@[simp] theorem issue_inputs (s : State) : (issue s).inputs = s.inputs := rfl
@[simp] theorem issue_statuses (s : State) : (issue s).statuses = s.statuses := rfl
@[simp] theorem issue_readies (s : State) : (issue s).readies = s.readies := rfl
@[simp] theorem issue_draws (s : State) : (issue s).draws = s.draws := rfl
@[simp] theorem issue_past (s : State) : (issue s).past = s.past := rfl
@[simp] theorem issue_reads (s : State) : (issue s).reads = s.reads := rfl
@[simp] theorem issue_host (s : State) : (issue s).host = s.host := rfl

/-! The fields after `answerStrobe`. -/

@[simp] theorem answerStrobe_params (c : RadioCommand) (b : Byte) (s : State) : (answerStrobe c b s).params = s.params := rfl
@[simp] theorem answerStrobe_argByte (c : RadioCommand) (b : Byte) (s : State) : (answerStrobe c b s).argByte = s.argByte := rfl
@[simp] theorem answerStrobe_argLen (c : RadioCommand) (b : Byte) (s : State) : (answerStrobe c b s).argLen = s.argLen := rfl
@[simp] theorem answerStrobe_argAddr (c : RadioCommand) (b : Byte) (s : State) : (answerStrobe c b s).argAddr = s.argAddr := rfl
@[simp] theorem answerStrobe_result (c : RadioCommand) (b : Byte) (s : State) : (answerStrobe c b s).result = s.result := rfl
@[simp] theorem answerStrobe_busy (c : RadioCommand) (b : Byte) (s : State) : (answerStrobe c b s).busy = s.busy := rfl
@[simp] theorem answerStrobe_ill (c : RadioCommand) (b : Byte) (s : State) : (answerStrobe c b s).ill = s.ill := rfl
@[simp] theorem answerStrobe_ovr (c : RadioCommand) (b : Byte) (s : State) : (answerStrobe c b s).ovr = s.ovr := rfl
@[simp] theorem answerStrobe_range (c : RadioCommand) (b : Byte) (s : State) : (answerStrobe c b s).range = s.range := rfl
@[simp] theorem answerStrobe_lastRStatus (c : RadioCommand) (b : Byte) (s : State) : (answerStrobe c b s).lastRStatus = b := rfl
@[simp] theorem answerStrobe_lByte (c : RadioCommand) (b : Byte) (s : State) : (answerStrobe c b s).lByte = s.lByte := rfl
@[simp] theorem answerStrobe_lLen (c : RadioCommand) (b : Byte) (s : State) : (answerStrobe c b s).lLen = s.lLen := rfl
@[simp] theorem answerStrobe_lAddr (c : RadioCommand) (b : Byte) (s : State) : (answerStrobe c b s).lAddr = s.lAddr := rfl
@[simp] theorem answerStrobe_op (c : RadioCommand) (b : Byte) (s : State) : (answerStrobe c b s).op = s.op := rfl
@[simp] theorem answerStrobe_phase (c : RadioCommand) (b : Byte) (s : State) : (answerStrobe c b s).phase = s.phase := rfl
@[simp] theorem answerStrobe_chip (c : RadioCommand) (b : Byte) (s : State) : (answerStrobe c b s).chip = s.chip := rfl
@[simp] theorem answerStrobe_symidx (c : RadioCommand) (b : Byte) (s : State) : (answerStrobe c b s).symidx = s.symidx := rfl
@[simp] theorem answerStrobe_rem (c : RadioCommand) (b : Byte) (s : State) : (answerStrobe c b s).rem = s.rem := rfl
@[simp] theorem answerStrobe_src (c : RadioCommand) (b : Byte) (s : State) : (answerStrobe c b s).src = s.src := rfl
@[simp] theorem answerStrobe_issued (c : RadioCommand) (b : Byte) (s : State) : (answerStrobe c b s).issued = false := rfl
@[simp] theorem answerStrobe_burstLeft (c : RadioCommand) (b : Byte) (s : State) : (answerStrobe c b s).burstLeft = s.burstLeft := rfl
@[simp] theorem answerStrobe_burstSent (c : RadioCommand) (b : Byte) (s : State) : (answerStrobe c b s).burstSent = s.burstSent := rfl
@[simp] theorem answerStrobe_waitLeft (c : RadioCommand) (b : Byte) (s : State) : (answerStrobe c b s).waitLeft = s.waitLeft := rfl
@[simp] theorem answerStrobe_cw (c : RadioCommand) (b : Byte) (s : State) : (answerStrobe c b s).cw = s.cw := rfl
@[simp] theorem answerStrobe_sb (c : RadioCommand) (b : Byte) (s : State) : (answerStrobe c b s).sb = s.sb := rfl
@[simp] theorem answerStrobe_prn0 (c : RadioCommand) (b : Byte) (s : State) : (answerStrobe c b s).prn0 = s.prn0 := rfl
@[simp] theorem answerStrobe_prn1 (c : RadioCommand) (b : Byte) (s : State) : (answerStrobe c b s).prn1 = s.prn1 := rfl
@[simp] theorem answerStrobe_mem (c : RadioCommand) (b : Byte) (s : State) : (answerStrobe c b s).mem = s.mem := rfl
@[simp] theorem answerStrobe_stale (c : RadioCommand) (b : Byte) (s : State) : (answerStrobe c b s).stale = s.stale := rfl
@[simp] theorem answerStrobe_inputs (c : RadioCommand) (b : Byte) (s : State) : (answerStrobe c b s).inputs = s.inputs := rfl
@[simp] theorem answerStrobe_statuses (c : RadioCommand) (b : Byte) (s : State) : (answerStrobe c b s).statuses = s.statuses := rfl
@[simp] theorem answerStrobe_readies (c : RadioCommand) (b : Byte) (s : State) : (answerStrobe c b s).readies = s.readies := rfl
@[simp] theorem answerStrobe_draws (c : RadioCommand) (b : Byte) (s : State) : (answerStrobe c b s).draws = s.draws := rfl
@[simp] theorem answerStrobe_past (c : RadioCommand) (b : Byte) (s : State) : (answerStrobe c b s).past = s.past ++ [.strobe (s.params.strobeCode.code c) (some b)] := rfl
@[simp] theorem answerStrobe_reads (c : RadioCommand) (b : Byte) (s : State) : (answerStrobe c b s).reads = s.reads := rfl
@[simp] theorem answerStrobe_host (c : RadioCommand) (b : Byte) (s : State) : (answerStrobe c b s).host = s.host := rfl

/-! The fields after `enterBurst`. -/

@[simp] theorem enterBurst_params (p : Phase) (k : Nat) (s : State) : (enterBurst p k s).params = s.params := rfl
@[simp] theorem enterBurst_argByte (p : Phase) (k : Nat) (s : State) : (enterBurst p k s).argByte = s.argByte := rfl
@[simp] theorem enterBurst_argLen (p : Phase) (k : Nat) (s : State) : (enterBurst p k s).argLen = s.argLen := rfl
@[simp] theorem enterBurst_argAddr (p : Phase) (k : Nat) (s : State) : (enterBurst p k s).argAddr = s.argAddr := rfl
@[simp] theorem enterBurst_result (p : Phase) (k : Nat) (s : State) : (enterBurst p k s).result = s.result := rfl
@[simp] theorem enterBurst_busy (p : Phase) (k : Nat) (s : State) : (enterBurst p k s).busy = s.busy := rfl
@[simp] theorem enterBurst_ill (p : Phase) (k : Nat) (s : State) : (enterBurst p k s).ill = s.ill := rfl
@[simp] theorem enterBurst_ovr (p : Phase) (k : Nat) (s : State) : (enterBurst p k s).ovr = s.ovr := rfl
@[simp] theorem enterBurst_range (p : Phase) (k : Nat) (s : State) : (enterBurst p k s).range = s.range := rfl
@[simp] theorem enterBurst_lastRStatus (p : Phase) (k : Nat) (s : State) : (enterBurst p k s).lastRStatus = s.lastRStatus := rfl
@[simp] theorem enterBurst_lByte (p : Phase) (k : Nat) (s : State) : (enterBurst p k s).lByte = s.lByte := rfl
@[simp] theorem enterBurst_lLen (p : Phase) (k : Nat) (s : State) : (enterBurst p k s).lLen = s.lLen := rfl
@[simp] theorem enterBurst_lAddr (p : Phase) (k : Nat) (s : State) : (enterBurst p k s).lAddr = s.lAddr := rfl
@[simp] theorem enterBurst_op (p : Phase) (k : Nat) (s : State) : (enterBurst p k s).op = s.op := rfl
@[simp] theorem enterBurst_phase (p : Phase) (k : Nat) (s : State) : (enterBurst p k s).phase = p := rfl
@[simp] theorem enterBurst_chip (p : Phase) (k : Nat) (s : State) : (enterBurst p k s).chip = s.chip := rfl
@[simp] theorem enterBurst_symidx (p : Phase) (k : Nat) (s : State) : (enterBurst p k s).symidx = s.symidx := rfl
@[simp] theorem enterBurst_rem (p : Phase) (k : Nat) (s : State) : (enterBurst p k s).rem = s.rem := rfl
@[simp] theorem enterBurst_src (p : Phase) (k : Nat) (s : State) : (enterBurst p k s).src = s.src := rfl
@[simp] theorem enterBurst_issued (p : Phase) (k : Nat) (s : State) : (enterBurst p k s).issued = s.issued := rfl
@[simp] theorem enterBurst_burstLeft (p : Phase) (k : Nat) (s : State) : (enterBurst p k s).burstLeft = k := rfl
@[simp] theorem enterBurst_burstSent (p : Phase) (k : Nat) (s : State) : (enterBurst p k s).burstSent = [] := rfl
@[simp] theorem enterBurst_waitLeft (p : Phase) (k : Nat) (s : State) : (enterBurst p k s).waitLeft = s.waitLeft := rfl
@[simp] theorem enterBurst_cw (p : Phase) (k : Nat) (s : State) : (enterBurst p k s).cw = s.cw := rfl
@[simp] theorem enterBurst_sb (p : Phase) (k : Nat) (s : State) : (enterBurst p k s).sb = s.sb := rfl
@[simp] theorem enterBurst_prn0 (p : Phase) (k : Nat) (s : State) : (enterBurst p k s).prn0 = s.prn0 := rfl
@[simp] theorem enterBurst_prn1 (p : Phase) (k : Nat) (s : State) : (enterBurst p k s).prn1 = s.prn1 := rfl
@[simp] theorem enterBurst_mem (p : Phase) (k : Nat) (s : State) : (enterBurst p k s).mem = s.mem := rfl
@[simp] theorem enterBurst_stale (p : Phase) (k : Nat) (s : State) : (enterBurst p k s).stale = s.stale := rfl
@[simp] theorem enterBurst_inputs (p : Phase) (k : Nat) (s : State) : (enterBurst p k s).inputs = s.inputs := rfl
@[simp] theorem enterBurst_statuses (p : Phase) (k : Nat) (s : State) : (enterBurst p k s).statuses = s.statuses := rfl
@[simp] theorem enterBurst_readies (p : Phase) (k : Nat) (s : State) : (enterBurst p k s).readies = s.readies := rfl
@[simp] theorem enterBurst_draws (p : Phase) (k : Nat) (s : State) : (enterBurst p k s).draws = s.draws := rfl
@[simp] theorem enterBurst_past (p : Phase) (k : Nat) (s : State) : (enterBurst p k s).past = s.past := rfl
@[simp] theorem enterBurst_reads (p : Phase) (k : Nat) (s : State) : (enterBurst p k s).reads = s.reads := rfl
@[simp] theorem enterBurst_host (p : Phase) (k : Nat) (s : State) : (enterBurst p k s).host = s.host := rfl

/-! The fields after `closeBurst`. -/

@[simp] theorem closeBurst_params (s : State) : (closeBurst s).params = s.params := rfl
@[simp] theorem closeBurst_argByte (s : State) : (closeBurst s).argByte = s.argByte := rfl
@[simp] theorem closeBurst_argLen (s : State) : (closeBurst s).argLen = s.argLen := rfl
@[simp] theorem closeBurst_argAddr (s : State) : (closeBurst s).argAddr = s.argAddr := rfl
@[simp] theorem closeBurst_result (s : State) : (closeBurst s).result = s.result := rfl
@[simp] theorem closeBurst_busy (s : State) : (closeBurst s).busy = s.busy := rfl
@[simp] theorem closeBurst_ill (s : State) : (closeBurst s).ill = s.ill := rfl
@[simp] theorem closeBurst_ovr (s : State) : (closeBurst s).ovr = s.ovr := rfl
@[simp] theorem closeBurst_range (s : State) : (closeBurst s).range = s.range := rfl
@[simp] theorem closeBurst_lastRStatus (s : State) : (closeBurst s).lastRStatus = s.lastRStatus := rfl
@[simp] theorem closeBurst_lByte (s : State) : (closeBurst s).lByte = s.lByte := rfl
@[simp] theorem closeBurst_lLen (s : State) : (closeBurst s).lLen = s.lLen := rfl
@[simp] theorem closeBurst_lAddr (s : State) : (closeBurst s).lAddr = s.lAddr := rfl
@[simp] theorem closeBurst_op (s : State) : (closeBurst s).op = s.op := rfl
@[simp] theorem closeBurst_phase (s : State) : (closeBurst s).phase = s.phase := rfl
@[simp] theorem closeBurst_chip (s : State) : (closeBurst s).chip = s.chip := rfl
@[simp] theorem closeBurst_symidx (s : State) : (closeBurst s).symidx = s.symidx := rfl
@[simp] theorem closeBurst_rem (s : State) : (closeBurst s).rem = s.rem - BitVec.ofNat 16 s.burstSent.length := rfl
@[simp] theorem closeBurst_src (s : State) : (closeBurst s).src = s.src := rfl
@[simp] theorem closeBurst_issued (s : State) : (closeBurst s).issued = false := rfl
@[simp] theorem closeBurst_burstLeft (s : State) : (closeBurst s).burstLeft = s.burstLeft := rfl
@[simp] theorem closeBurst_burstSent (s : State) : (closeBurst s).burstSent = [] := rfl
@[simp] theorem closeBurst_waitLeft (s : State) : (closeBurst s).waitLeft = s.waitLeft := rfl
@[simp] theorem closeBurst_cw (s : State) : (closeBurst s).cw = s.cw := rfl
@[simp] theorem closeBurst_sb (s : State) : (closeBurst s).sb = s.sb := rfl
@[simp] theorem closeBurst_prn0 (s : State) : (closeBurst s).prn0 = s.prn0 := rfl
@[simp] theorem closeBurst_prn1 (s : State) : (closeBurst s).prn1 = s.prn1 := rfl
@[simp] theorem closeBurst_mem (s : State) : (closeBurst s).mem = s.mem := rfl
@[simp] theorem closeBurst_stale (s : State) : (closeBurst s).stale = s.stale := rfl
@[simp] theorem closeBurst_inputs (s : State) : (closeBurst s).inputs = s.inputs := rfl
@[simp] theorem closeBurst_statuses (s : State) : (closeBurst s).statuses = s.statuses := rfl
@[simp] theorem closeBurst_readies (s : State) : (closeBurst s).readies = s.readies := rfl
@[simp] theorem closeBurst_draws (s : State) : (closeBurst s).draws = s.draws := rfl
@[simp] theorem closeBurst_past (s : State) : (closeBurst s).past = s.past ++ [.burst s.burstSent] := rfl
@[simp] theorem closeBurst_reads (s : State) : (closeBurst s).reads = s.reads := rfl
@[simp] theorem closeBurst_host (s : State) : (closeBurst s).host = s.host := rfl

/-! The fields after `enterRefillWait`. -/

@[simp] theorem enterRefillWait_params (s : State) : (enterRefillWait s).params = s.params := rfl
@[simp] theorem enterRefillWait_argByte (s : State) : (enterRefillWait s).argByte = s.argByte := rfl
@[simp] theorem enterRefillWait_argLen (s : State) : (enterRefillWait s).argLen = s.argLen := rfl
@[simp] theorem enterRefillWait_argAddr (s : State) : (enterRefillWait s).argAddr = s.argAddr := rfl
@[simp] theorem enterRefillWait_result (s : State) : (enterRefillWait s).result = s.result := rfl
@[simp] theorem enterRefillWait_busy (s : State) : (enterRefillWait s).busy = s.busy := rfl
@[simp] theorem enterRefillWait_ill (s : State) : (enterRefillWait s).ill = s.ill := rfl
@[simp] theorem enterRefillWait_ovr (s : State) : (enterRefillWait s).ovr = s.ovr := rfl
@[simp] theorem enterRefillWait_range (s : State) : (enterRefillWait s).range = s.range := rfl
@[simp] theorem enterRefillWait_lastRStatus (s : State) : (enterRefillWait s).lastRStatus = s.lastRStatus := rfl
@[simp] theorem enterRefillWait_lByte (s : State) : (enterRefillWait s).lByte = s.lByte := rfl
@[simp] theorem enterRefillWait_lLen (s : State) : (enterRefillWait s).lLen = s.lLen := rfl
@[simp] theorem enterRefillWait_lAddr (s : State) : (enterRefillWait s).lAddr = s.lAddr := rfl
@[simp] theorem enterRefillWait_op (s : State) : (enterRefillWait s).op = s.op := rfl
@[simp] theorem enterRefillWait_phase (s : State) : (enterRefillWait s).phase = .refillWait := rfl
@[simp] theorem enterRefillWait_chip (s : State) : (enterRefillWait s).chip = s.chip := rfl
@[simp] theorem enterRefillWait_symidx (s : State) : (enterRefillWait s).symidx = s.symidx := rfl
@[simp] theorem enterRefillWait_rem (s : State) : (enterRefillWait s).rem = s.rem := rfl
@[simp] theorem enterRefillWait_src (s : State) : (enterRefillWait s).src = s.src := rfl
@[simp] theorem enterRefillWait_issued (s : State) : (enterRefillWait s).issued = s.issued := rfl
@[simp] theorem enterRefillWait_burstLeft (s : State) : (enterRefillWait s).burstLeft = s.burstLeft := rfl
@[simp] theorem enterRefillWait_burstSent (s : State) : (enterRefillWait s).burstSent = s.burstSent := rfl
@[simp] theorem enterRefillWait_waitLeft (s : State) : (enterRefillWait s).waitLeft = s.params.refillWait := rfl
@[simp] theorem enterRefillWait_cw (s : State) : (enterRefillWait s).cw = s.cw := rfl
@[simp] theorem enterRefillWait_sb (s : State) : (enterRefillWait s).sb = s.sb := rfl
@[simp] theorem enterRefillWait_prn0 (s : State) : (enterRefillWait s).prn0 = s.prn0 := rfl
@[simp] theorem enterRefillWait_prn1 (s : State) : (enterRefillWait s).prn1 = s.prn1 := rfl
@[simp] theorem enterRefillWait_mem (s : State) : (enterRefillWait s).mem = s.mem := rfl
@[simp] theorem enterRefillWait_stale (s : State) : (enterRefillWait s).stale = s.stale := rfl
@[simp] theorem enterRefillWait_inputs (s : State) : (enterRefillWait s).inputs = s.inputs := rfl
@[simp] theorem enterRefillWait_statuses (s : State) : (enterRefillWait s).statuses = s.statuses := rfl
@[simp] theorem enterRefillWait_readies (s : State) : (enterRefillWait s).readies = s.readies := rfl
@[simp] theorem enterRefillWait_draws (s : State) : (enterRefillWait s).draws = s.draws := rfl
@[simp] theorem enterRefillWait_past (s : State) : (enterRefillWait s).past = s.past := rfl
@[simp] theorem enterRefillWait_reads (s : State) : (enterRefillWait s).reads = s.reads := rfl
@[simp] theorem enterRefillWait_host (s : State) : (enterRefillWait s).host = s.host := rfl

/-! The fields after `enterSymWait`. -/

@[simp] theorem enterSymWait_params (s : State) : (enterSymWait s).params = s.params := rfl
@[simp] theorem enterSymWait_argByte (s : State) : (enterSymWait s).argByte = s.argByte := rfl
@[simp] theorem enterSymWait_argLen (s : State) : (enterSymWait s).argLen = s.argLen := rfl
@[simp] theorem enterSymWait_argAddr (s : State) : (enterSymWait s).argAddr = s.argAddr := rfl
@[simp] theorem enterSymWait_result (s : State) : (enterSymWait s).result = s.result := rfl
@[simp] theorem enterSymWait_busy (s : State) : (enterSymWait s).busy = s.busy := rfl
@[simp] theorem enterSymWait_ill (s : State) : (enterSymWait s).ill = s.ill := rfl
@[simp] theorem enterSymWait_ovr (s : State) : (enterSymWait s).ovr = s.ovr := rfl
@[simp] theorem enterSymWait_range (s : State) : (enterSymWait s).range = s.range := rfl
@[simp] theorem enterSymWait_lastRStatus (s : State) : (enterSymWait s).lastRStatus = s.lastRStatus := rfl
@[simp] theorem enterSymWait_lByte (s : State) : (enterSymWait s).lByte = s.lByte := rfl
@[simp] theorem enterSymWait_lLen (s : State) : (enterSymWait s).lLen = s.lLen := rfl
@[simp] theorem enterSymWait_lAddr (s : State) : (enterSymWait s).lAddr = s.lAddr := rfl
@[simp] theorem enterSymWait_op (s : State) : (enterSymWait s).op = s.op := rfl
@[simp] theorem enterSymWait_phase (s : State) : (enterSymWait s).phase = .symWait := rfl
@[simp] theorem enterSymWait_chip (s : State) : (enterSymWait s).chip = s.chip := rfl
@[simp] theorem enterSymWait_symidx (s : State) : (enterSymWait s).symidx = s.symidx := rfl
@[simp] theorem enterSymWait_rem (s : State) : (enterSymWait s).rem = s.rem := rfl
@[simp] theorem enterSymWait_src (s : State) : (enterSymWait s).src = s.src := rfl
@[simp] theorem enterSymWait_issued (s : State) : (enterSymWait s).issued = s.issued := rfl
@[simp] theorem enterSymWait_burstLeft (s : State) : (enterSymWait s).burstLeft = s.burstLeft := rfl
@[simp] theorem enterSymWait_burstSent (s : State) : (enterSymWait s).burstSent = s.burstSent := rfl
@[simp] theorem enterSymWait_waitLeft (s : State) : (enterSymWait s).waitLeft = jitterDuration s := rfl
@[simp] theorem enterSymWait_cw (s : State) : (enterSymWait s).cw = s.cw := rfl
@[simp] theorem enterSymWait_sb (s : State) : (enterSymWait s).sb = s.sb := rfl
@[simp] theorem enterSymWait_prn0 (s : State) : (enterSymWait s).prn0 = s.prn0 := rfl
@[simp] theorem enterSymWait_prn1 (s : State) : (enterSymWait s).prn1 = s.prn1 := rfl
@[simp] theorem enterSymWait_mem (s : State) : (enterSymWait s).mem = s.mem := rfl
@[simp] theorem enterSymWait_stale (s : State) : (enterSymWait s).stale = s.stale := rfl
@[simp] theorem enterSymWait_inputs (s : State) : (enterSymWait s).inputs = s.inputs := rfl
@[simp] theorem enterSymWait_statuses (s : State) : (enterSymWait s).statuses = s.statuses := rfl
@[simp] theorem enterSymWait_readies (s : State) : (enterSymWait s).readies = s.readies := rfl
@[simp] theorem enterSymWait_draws (s : State) : (enterSymWait s).draws = s.draws + 1 := rfl
@[simp] theorem enterSymWait_past (s : State) : (enterSymWait s).past = s.past := rfl
@[simp] theorem enterSymWait_reads (s : State) : (enterSymWait s).reads = s.reads := rfl
@[simp] theorem enterSymWait_host (s : State) : (enterSymWait s).host = s.host := rfl

/-! The fields after `streamStart`. -/

@[simp] theorem streamStart_params (src : Src) (len : Half) (s : State) : (streamStart src len s).params = s.params := rfl
@[simp] theorem streamStart_argByte (src : Src) (len : Half) (s : State) : (streamStart src len s).argByte = s.argByte := rfl
@[simp] theorem streamStart_argLen (src : Src) (len : Half) (s : State) : (streamStart src len s).argLen = s.argLen := rfl
@[simp] theorem streamStart_argAddr (src : Src) (len : Half) (s : State) : (streamStart src len s).argAddr = s.argAddr := rfl
@[simp] theorem streamStart_result (src : Src) (len : Half) (s : State) : (streamStart src len s).result = s.result := rfl
@[simp] theorem streamStart_busy (src : Src) (len : Half) (s : State) : (streamStart src len s).busy = s.busy := rfl
@[simp] theorem streamStart_ill (src : Src) (len : Half) (s : State) : (streamStart src len s).ill = s.ill := rfl
@[simp] theorem streamStart_ovr (src : Src) (len : Half) (s : State) : (streamStart src len s).ovr = s.ovr := rfl
@[simp] theorem streamStart_range (src : Src) (len : Half) (s : State) : (streamStart src len s).range = s.range := rfl
@[simp] theorem streamStart_lastRStatus (src : Src) (len : Half) (s : State) : (streamStart src len s).lastRStatus = s.lastRStatus := rfl
@[simp] theorem streamStart_lByte (src : Src) (len : Half) (s : State) : (streamStart src len s).lByte = s.lByte := rfl
@[simp] theorem streamStart_lLen (src : Src) (len : Half) (s : State) : (streamStart src len s).lLen = s.lLen := rfl
@[simp] theorem streamStart_lAddr (src : Src) (len : Half) (s : State) : (streamStart src len s).lAddr = s.lAddr := rfl
@[simp] theorem streamStart_op (src : Src) (len : Half) (s : State) : (streamStart src len s).op = s.op := rfl
@[simp] theorem streamStart_phase (src : Src) (len : Half) (s : State) : (streamStart src len s).phase = .flushCmd := rfl
@[simp] theorem streamStart_chip (src : Src) (len : Half) (s : State) : (streamStart src len s).chip = s.chip := rfl
@[simp] theorem streamStart_symidx (src : Src) (len : Half) (s : State) : (streamStart src len s).symidx = s.symidx := rfl
@[simp] theorem streamStart_rem (src : Src) (len : Half) (s : State) : (streamStart src len s).rem = len := rfl
@[simp] theorem streamStart_src (src : Src) (len : Half) (s : State) : (streamStart src len s).src = src := rfl
@[simp] theorem streamStart_issued (src : Src) (len : Half) (s : State) : (streamStart src len s).issued = s.issued := rfl
@[simp] theorem streamStart_burstLeft (src : Src) (len : Half) (s : State) : (streamStart src len s).burstLeft = s.burstLeft := rfl
@[simp] theorem streamStart_burstSent (src : Src) (len : Half) (s : State) : (streamStart src len s).burstSent = s.burstSent := rfl
@[simp] theorem streamStart_waitLeft (src : Src) (len : Half) (s : State) : (streamStart src len s).waitLeft = s.waitLeft := rfl
@[simp] theorem streamStart_cw (src : Src) (len : Half) (s : State) : (streamStart src len s).cw = s.cw := rfl
@[simp] theorem streamStart_sb (src : Src) (len : Half) (s : State) : (streamStart src len s).sb = s.sb := rfl
@[simp] theorem streamStart_prn0 (src : Src) (len : Half) (s : State) : (streamStart src len s).prn0 = s.prn0 := rfl
@[simp] theorem streamStart_prn1 (src : Src) (len : Half) (s : State) : (streamStart src len s).prn1 = s.prn1 := rfl
@[simp] theorem streamStart_mem (src : Src) (len : Half) (s : State) : (streamStart src len s).mem = s.mem := rfl
@[simp] theorem streamStart_stale (src : Src) (len : Half) (s : State) : (streamStart src len s).stale = s.stale := rfl
@[simp] theorem streamStart_inputs (src : Src) (len : Half) (s : State) : (streamStart src len s).inputs = s.inputs := rfl
@[simp] theorem streamStart_statuses (src : Src) (len : Half) (s : State) : (streamStart src len s).statuses = s.statuses := rfl
@[simp] theorem streamStart_readies (src : Src) (len : Half) (s : State) : (streamStart src len s).readies = s.readies := rfl
@[simp] theorem streamStart_draws (src : Src) (len : Half) (s : State) : (streamStart src len s).draws = s.draws := rfl
@[simp] theorem streamStart_past (src : Src) (len : Half) (s : State) : (streamStart src len s).past = s.past := rfl
@[simp] theorem streamStart_reads (src : Src) (len : Half) (s : State) : (streamStart src len s).reads = s.reads := rfl
@[simp] theorem streamStart_host (src : Src) (len : Half) (s : State) : (streamStart src len s).host = s.host := rfl

/-! The fields after `encodeLatchedByte`. -/

@[simp] theorem encodeLatchedByte_params (s : State) : (encodeLatchedByte s).params = s.params := rfl
@[simp] theorem encodeLatchedByte_argByte (s : State) : (encodeLatchedByte s).argByte = s.argByte := rfl
@[simp] theorem encodeLatchedByte_argLen (s : State) : (encodeLatchedByte s).argLen = s.argLen := rfl
@[simp] theorem encodeLatchedByte_argAddr (s : State) : (encodeLatchedByte s).argAddr = s.argAddr := rfl
@[simp] theorem encodeLatchedByte_result (s : State) : (encodeLatchedByte s).result = fecParity s.params.fecMasks s.lByte := rfl
@[simp] theorem encodeLatchedByte_busy (s : State) : (encodeLatchedByte s).busy = s.busy := rfl
@[simp] theorem encodeLatchedByte_ill (s : State) : (encodeLatchedByte s).ill = s.ill := rfl
@[simp] theorem encodeLatchedByte_ovr (s : State) : (encodeLatchedByte s).ovr = s.ovr := rfl
@[simp] theorem encodeLatchedByte_range (s : State) : (encodeLatchedByte s).range = s.range := rfl
@[simp] theorem encodeLatchedByte_lastRStatus (s : State) : (encodeLatchedByte s).lastRStatus = s.lastRStatus := rfl
@[simp] theorem encodeLatchedByte_lByte (s : State) : (encodeLatchedByte s).lByte = s.lByte := rfl
@[simp] theorem encodeLatchedByte_lLen (s : State) : (encodeLatchedByte s).lLen = s.lLen := rfl
@[simp] theorem encodeLatchedByte_lAddr (s : State) : (encodeLatchedByte s).lAddr = s.lAddr := rfl
@[simp] theorem encodeLatchedByte_op (s : State) : (encodeLatchedByte s).op = s.op := rfl
@[simp] theorem encodeLatchedByte_phase (s : State) : (encodeLatchedByte s).phase = s.phase := rfl
@[simp] theorem encodeLatchedByte_chip (s : State) : (encodeLatchedByte s).chip = s.chip := rfl
@[simp] theorem encodeLatchedByte_symidx (s : State) : (encodeLatchedByte s).symidx = s.symidx := rfl
@[simp] theorem encodeLatchedByte_rem (s : State) : (encodeLatchedByte s).rem = s.rem := rfl
@[simp] theorem encodeLatchedByte_src (s : State) : (encodeLatchedByte s).src = s.src := rfl
@[simp] theorem encodeLatchedByte_issued (s : State) : (encodeLatchedByte s).issued = s.issued := rfl
@[simp] theorem encodeLatchedByte_burstLeft (s : State) : (encodeLatchedByte s).burstLeft = s.burstLeft := rfl
@[simp] theorem encodeLatchedByte_burstSent (s : State) : (encodeLatchedByte s).burstSent = s.burstSent := rfl
@[simp] theorem encodeLatchedByte_waitLeft (s : State) : (encodeLatchedByte s).waitLeft = s.waitLeft := rfl
@[simp] theorem encodeLatchedByte_cw (s : State) : (encodeLatchedByte s).cw = s.cw := rfl
@[simp] theorem encodeLatchedByte_sb (s : State) : (encodeLatchedByte s).sb = s.sb := rfl
@[simp] theorem encodeLatchedByte_prn0 (s : State) : (encodeLatchedByte s).prn0 = s.prn0 := rfl
@[simp] theorem encodeLatchedByte_prn1 (s : State) : (encodeLatchedByte s).prn1 = s.prn1 := rfl
@[simp] theorem encodeLatchedByte_mem (s : State) : (encodeLatchedByte s).mem = s.mem := rfl
@[simp] theorem encodeLatchedByte_stale (s : State) : (encodeLatchedByte s).stale = s.stale := rfl
@[simp] theorem encodeLatchedByte_inputs (s : State) : (encodeLatchedByte s).inputs = s.inputs := rfl
@[simp] theorem encodeLatchedByte_statuses (s : State) : (encodeLatchedByte s).statuses = s.statuses := rfl
@[simp] theorem encodeLatchedByte_readies (s : State) : (encodeLatchedByte s).readies = s.readies := rfl
@[simp] theorem encodeLatchedByte_draws (s : State) : (encodeLatchedByte s).draws = s.draws := rfl
@[simp] theorem encodeLatchedByte_past (s : State) : (encodeLatchedByte s).past = s.past := rfl
@[simp] theorem encodeLatchedByte_reads (s : State) : (encodeLatchedByte s).reads = s.reads := rfl
@[simp] theorem encodeLatchedByte_host (s : State) : (encodeLatchedByte s).host = s.host := rfl

/-! The fields after `raiseError`: the flag it names, and no other field. -/

@[simp] theorem raiseError_params (e : ErrorCode) (s : State) : (raiseError e s).params = s.params := by cases e <;> rfl
@[simp] theorem raiseError_argByte (e : ErrorCode) (s : State) : (raiseError e s).argByte = s.argByte := by cases e <;> rfl
@[simp] theorem raiseError_argLen (e : ErrorCode) (s : State) : (raiseError e s).argLen = s.argLen := by cases e <;> rfl
@[simp] theorem raiseError_argAddr (e : ErrorCode) (s : State) : (raiseError e s).argAddr = s.argAddr := by cases e <;> rfl
@[simp] theorem raiseError_result (e : ErrorCode) (s : State) : (raiseError e s).result = s.result := by cases e <;> rfl
@[simp] theorem raiseError_busy (e : ErrorCode) (s : State) : (raiseError e s).busy = s.busy := by cases e <;> rfl
@[simp] theorem raiseError_lastRStatus (e : ErrorCode) (s : State) : (raiseError e s).lastRStatus = s.lastRStatus := by cases e <;> rfl
@[simp] theorem raiseError_lByte (e : ErrorCode) (s : State) : (raiseError e s).lByte = s.lByte := by cases e <;> rfl
@[simp] theorem raiseError_lLen (e : ErrorCode) (s : State) : (raiseError e s).lLen = s.lLen := by cases e <;> rfl
@[simp] theorem raiseError_lAddr (e : ErrorCode) (s : State) : (raiseError e s).lAddr = s.lAddr := by cases e <;> rfl
@[simp] theorem raiseError_op (e : ErrorCode) (s : State) : (raiseError e s).op = s.op := by cases e <;> rfl
@[simp] theorem raiseError_phase (e : ErrorCode) (s : State) : (raiseError e s).phase = s.phase := by cases e <;> rfl
@[simp] theorem raiseError_chip (e : ErrorCode) (s : State) : (raiseError e s).chip = s.chip := by cases e <;> rfl
@[simp] theorem raiseError_symidx (e : ErrorCode) (s : State) : (raiseError e s).symidx = s.symidx := by cases e <;> rfl
@[simp] theorem raiseError_rem (e : ErrorCode) (s : State) : (raiseError e s).rem = s.rem := by cases e <;> rfl
@[simp] theorem raiseError_src (e : ErrorCode) (s : State) : (raiseError e s).src = s.src := by cases e <;> rfl
@[simp] theorem raiseError_issued (e : ErrorCode) (s : State) : (raiseError e s).issued = s.issued := by cases e <;> rfl
@[simp] theorem raiseError_burstLeft (e : ErrorCode) (s : State) : (raiseError e s).burstLeft = s.burstLeft := by cases e <;> rfl
@[simp] theorem raiseError_burstSent (e : ErrorCode) (s : State) : (raiseError e s).burstSent = s.burstSent := by cases e <;> rfl
@[simp] theorem raiseError_waitLeft (e : ErrorCode) (s : State) : (raiseError e s).waitLeft = s.waitLeft := by cases e <;> rfl
@[simp] theorem raiseError_cw (e : ErrorCode) (s : State) : (raiseError e s).cw = s.cw := by cases e <;> rfl
@[simp] theorem raiseError_sb (e : ErrorCode) (s : State) : (raiseError e s).sb = s.sb := by cases e <;> rfl
@[simp] theorem raiseError_prn0 (e : ErrorCode) (s : State) : (raiseError e s).prn0 = s.prn0 := by cases e <;> rfl
@[simp] theorem raiseError_prn1 (e : ErrorCode) (s : State) : (raiseError e s).prn1 = s.prn1 := by cases e <;> rfl
@[simp] theorem raiseError_mem (e : ErrorCode) (s : State) : (raiseError e s).mem = s.mem := by cases e <;> rfl
@[simp] theorem raiseError_stale (e : ErrorCode) (s : State) : (raiseError e s).stale = s.stale := by cases e <;> rfl
@[simp] theorem raiseError_inputs (e : ErrorCode) (s : State) : (raiseError e s).inputs = s.inputs := by cases e <;> rfl
@[simp] theorem raiseError_statuses (e : ErrorCode) (s : State) : (raiseError e s).statuses = s.statuses := by cases e <;> rfl
@[simp] theorem raiseError_readies (e : ErrorCode) (s : State) : (raiseError e s).readies = s.readies := by cases e <;> rfl
@[simp] theorem raiseError_draws (e : ErrorCode) (s : State) : (raiseError e s).draws = s.draws := by cases e <;> rfl
@[simp] theorem raiseError_past (e : ErrorCode) (s : State) : (raiseError e s).past = s.past := by cases e <;> rfl
@[simp] theorem raiseError_reads (e : ErrorCode) (s : State) : (raiseError e s).reads = s.reads := by cases e <;> rfl
@[simp] theorem raiseError_host (e : ErrorCode) (s : State) : (raiseError e s).host = s.host := by cases e <;> rfl

@[simp] theorem raiseError_ill (s : State) : raiseError .ill s = { s with ill := true } := rfl
@[simp] theorem raiseError_ovr (s : State) : raiseError .ovr s = { s with ovr := true } := rfl
@[simp] theorem raiseError_range (s : State) : raiseError .range s = { s with range := true } := rfl

/-! The fields after `hostInit` and `hostTxInit`: the host's record, and no other field. -/

@[simp] theorem hostInit_params (s : State) : (hostInit s).params = s.params := rfl
@[simp] theorem hostInit_argByte (s : State) : (hostInit s).argByte = s.argByte := rfl
@[simp] theorem hostInit_argLen (s : State) : (hostInit s).argLen = s.argLen := rfl
@[simp] theorem hostInit_argAddr (s : State) : (hostInit s).argAddr = s.argAddr := rfl
@[simp] theorem hostInit_result (s : State) : (hostInit s).result = s.result := rfl
@[simp] theorem hostInit_busy (s : State) : (hostInit s).busy = s.busy := rfl
@[simp] theorem hostInit_ill (s : State) : (hostInit s).ill = s.ill := rfl
@[simp] theorem hostInit_ovr (s : State) : (hostInit s).ovr = s.ovr := rfl
@[simp] theorem hostInit_range (s : State) : (hostInit s).range = s.range := rfl
@[simp] theorem hostInit_lastRStatus (s : State) : (hostInit s).lastRStatus = s.lastRStatus := rfl
@[simp] theorem hostInit_lByte (s : State) : (hostInit s).lByte = s.lByte := rfl
@[simp] theorem hostInit_lLen (s : State) : (hostInit s).lLen = s.lLen := rfl
@[simp] theorem hostInit_lAddr (s : State) : (hostInit s).lAddr = s.lAddr := rfl
@[simp] theorem hostInit_op (s : State) : (hostInit s).op = s.op := rfl
@[simp] theorem hostInit_phase (s : State) : (hostInit s).phase = s.phase := rfl
@[simp] theorem hostInit_chip (s : State) : (hostInit s).chip = s.chip := rfl
@[simp] theorem hostInit_symidx (s : State) : (hostInit s).symidx = s.symidx := rfl
@[simp] theorem hostInit_rem (s : State) : (hostInit s).rem = s.rem := rfl
@[simp] theorem hostInit_src (s : State) : (hostInit s).src = s.src := rfl
@[simp] theorem hostInit_issued (s : State) : (hostInit s).issued = s.issued := rfl
@[simp] theorem hostInit_burstLeft (s : State) : (hostInit s).burstLeft = s.burstLeft := rfl
@[simp] theorem hostInit_burstSent (s : State) : (hostInit s).burstSent = s.burstSent := rfl
@[simp] theorem hostInit_waitLeft (s : State) : (hostInit s).waitLeft = s.waitLeft := rfl
@[simp] theorem hostInit_cw (s : State) : (hostInit s).cw = s.cw := rfl
@[simp] theorem hostInit_sb (s : State) : (hostInit s).sb = s.sb := rfl
@[simp] theorem hostInit_prn0 (s : State) : (hostInit s).prn0 = s.prn0 := rfl
@[simp] theorem hostInit_prn1 (s : State) : (hostInit s).prn1 = s.prn1 := rfl
@[simp] theorem hostInit_mem (s : State) : (hostInit s).mem = s.mem := rfl
@[simp] theorem hostInit_stale (s : State) : (hostInit s).stale = s.stale := rfl
@[simp] theorem hostInit_inputs (s : State) : (hostInit s).inputs = s.inputs := rfl
@[simp] theorem hostInit_statuses (s : State) : (hostInit s).statuses = s.statuses := rfl
@[simp] theorem hostInit_readies (s : State) : (hostInit s).readies = s.readies := rfl
@[simp] theorem hostInit_draws (s : State) : (hostInit s).draws = s.draws := rfl
@[simp] theorem hostInit_past (s : State) : (hostInit s).past = s.past := rfl
@[simp] theorem hostInit_reads (s : State) : (hostInit s).reads = s.reads := rfl
@[simp] theorem hostInit_host (s : State) : (hostInit s).host = { s.host with initDone := true } := rfl

@[simp] theorem hostTxInit_params (s : State) : (hostTxInit s).params = s.params := by unfold hostTxInit; split <;> rfl
@[simp] theorem hostTxInit_argByte (s : State) : (hostTxInit s).argByte = s.argByte := by unfold hostTxInit; split <;> rfl
@[simp] theorem hostTxInit_argLen (s : State) : (hostTxInit s).argLen = s.argLen := by unfold hostTxInit; split <;> rfl
@[simp] theorem hostTxInit_argAddr (s : State) : (hostTxInit s).argAddr = s.argAddr := by unfold hostTxInit; split <;> rfl
@[simp] theorem hostTxInit_result (s : State) : (hostTxInit s).result = s.result := by unfold hostTxInit; split <;> rfl
@[simp] theorem hostTxInit_busy (s : State) : (hostTxInit s).busy = s.busy := by unfold hostTxInit; split <;> rfl
@[simp] theorem hostTxInit_ill (s : State) : (hostTxInit s).ill = s.ill := by unfold hostTxInit; split <;> rfl
@[simp] theorem hostTxInit_ovr (s : State) : (hostTxInit s).ovr = s.ovr := by unfold hostTxInit; split <;> rfl
@[simp] theorem hostTxInit_range (s : State) : (hostTxInit s).range = s.range := by unfold hostTxInit; split <;> rfl
@[simp] theorem hostTxInit_lastRStatus (s : State) : (hostTxInit s).lastRStatus = s.lastRStatus := by unfold hostTxInit; split <;> rfl
@[simp] theorem hostTxInit_lByte (s : State) : (hostTxInit s).lByte = s.lByte := by unfold hostTxInit; split <;> rfl
@[simp] theorem hostTxInit_lLen (s : State) : (hostTxInit s).lLen = s.lLen := by unfold hostTxInit; split <;> rfl
@[simp] theorem hostTxInit_lAddr (s : State) : (hostTxInit s).lAddr = s.lAddr := by unfold hostTxInit; split <;> rfl
@[simp] theorem hostTxInit_op (s : State) : (hostTxInit s).op = s.op := by unfold hostTxInit; split <;> rfl
@[simp] theorem hostTxInit_phase (s : State) : (hostTxInit s).phase = s.phase := by unfold hostTxInit; split <;> rfl
@[simp] theorem hostTxInit_chip (s : State) : (hostTxInit s).chip = s.chip := by unfold hostTxInit; split <;> rfl
@[simp] theorem hostTxInit_symidx (s : State) : (hostTxInit s).symidx = s.symidx := by unfold hostTxInit; split <;> rfl
@[simp] theorem hostTxInit_rem (s : State) : (hostTxInit s).rem = s.rem := by unfold hostTxInit; split <;> rfl
@[simp] theorem hostTxInit_src (s : State) : (hostTxInit s).src = s.src := by unfold hostTxInit; split <;> rfl
@[simp] theorem hostTxInit_issued (s : State) : (hostTxInit s).issued = s.issued := by unfold hostTxInit; split <;> rfl
@[simp] theorem hostTxInit_burstLeft (s : State) : (hostTxInit s).burstLeft = s.burstLeft := by unfold hostTxInit; split <;> rfl
@[simp] theorem hostTxInit_burstSent (s : State) : (hostTxInit s).burstSent = s.burstSent := by unfold hostTxInit; split <;> rfl
@[simp] theorem hostTxInit_waitLeft (s : State) : (hostTxInit s).waitLeft = s.waitLeft := by unfold hostTxInit; split <;> rfl
@[simp] theorem hostTxInit_cw (s : State) : (hostTxInit s).cw = s.cw := by unfold hostTxInit; split <;> rfl
@[simp] theorem hostTxInit_sb (s : State) : (hostTxInit s).sb = s.sb := by unfold hostTxInit; split <;> rfl
@[simp] theorem hostTxInit_prn0 (s : State) : (hostTxInit s).prn0 = s.prn0 := by unfold hostTxInit; split <;> rfl
@[simp] theorem hostTxInit_prn1 (s : State) : (hostTxInit s).prn1 = s.prn1 := by unfold hostTxInit; split <;> rfl
@[simp] theorem hostTxInit_mem (s : State) : (hostTxInit s).mem = s.mem := by unfold hostTxInit; split <;> rfl
@[simp] theorem hostTxInit_stale (s : State) : (hostTxInit s).stale = s.stale := by unfold hostTxInit; split <;> rfl
@[simp] theorem hostTxInit_inputs (s : State) : (hostTxInit s).inputs = s.inputs := by unfold hostTxInit; split <;> rfl
@[simp] theorem hostTxInit_statuses (s : State) : (hostTxInit s).statuses = s.statuses := by unfold hostTxInit; split <;> rfl
@[simp] theorem hostTxInit_readies (s : State) : (hostTxInit s).readies = s.readies := by unfold hostTxInit; split <;> rfl
@[simp] theorem hostTxInit_draws (s : State) : (hostTxInit s).draws = s.draws := by unfold hostTxInit; split <;> rfl
@[simp] theorem hostTxInit_past (s : State) : (hostTxInit s).past = s.past := by unfold hostTxInit; split <;> rfl
@[simp] theorem hostTxInit_reads (s : State) : (hostTxInit s).reads = s.reads := by unfold hostTxInit; split <;> rfl

/-- While BUSY = 1 the host has no `txInit()` (R104). -/
theorem hostTxInit_while_busy {s : State} (h : s.busy = true) : hostTxInit s = s := by simp [hostTxInit, h]

/-- `txInit()` counts after `init()`, and the order of the raw operations begins anew (R211, R213). -/
theorem hostTxInit_while_idle {s : State} (h : s.busy = false) :
    hostTxInit s = { s with host := { s.host with txInitDone := s.host.initDone, orderFrom := s.history.length } } := by
  simp [hostTxInit, h]

/-! The fields after `blockReset` (10_state.md R41, R210). -/

@[simp] theorem blockReset_params (s : State) : (blockReset s).params = s.params := rfl
@[simp] theorem blockReset_argByte (s : State) : (blockReset s).argByte = 0 := rfl
@[simp] theorem blockReset_argLen (s : State) : (blockReset s).argLen = 0 := rfl
@[simp] theorem blockReset_argAddr (s : State) : (blockReset s).argAddr = 0 := rfl
@[simp] theorem blockReset_result (s : State) : (blockReset s).result = 0 := rfl
@[simp] theorem blockReset_busy (s : State) : (blockReset s).busy = false := rfl
@[simp] theorem blockReset_ill (s : State) : (blockReset s).ill = false := rfl
@[simp] theorem blockReset_ovr (s : State) : (blockReset s).ovr = false := rfl
@[simp] theorem blockReset_range (s : State) : (blockReset s).range = false := rfl
@[simp] theorem blockReset_lastRStatus (s : State) : (blockReset s).lastRStatus = 0 := rfl
@[simp] theorem blockReset_lByte (s : State) : (blockReset s).lByte = 0 := rfl
@[simp] theorem blockReset_lLen (s : State) : (blockReset s).lLen = 0 := rfl
@[simp] theorem blockReset_lAddr (s : State) : (blockReset s).lAddr = 0 := rfl
@[simp] theorem blockReset_op (s : State) : (blockReset s).op = none := rfl
@[simp] theorem blockReset_phase (s : State) : (blockReset s).phase = .idle := rfl
@[simp] theorem blockReset_chip (s : State) : (blockReset s).chip = 0 := rfl
@[simp] theorem blockReset_symidx (s : State) : (blockReset s).symidx = 0 := rfl
@[simp] theorem blockReset_rem (s : State) : (blockReset s).rem = 0 := rfl
@[simp] theorem blockReset_src (s : State) : (blockReset s).src = .zero := rfl
@[simp] theorem blockReset_issued (s : State) : (blockReset s).issued = false := rfl
@[simp] theorem blockReset_burstLeft (s : State) : (blockReset s).burstLeft = 0 := rfl
@[simp] theorem blockReset_burstSent (s : State) : (blockReset s).burstSent = [] := rfl
@[simp] theorem blockReset_waitLeft (s : State) : (blockReset s).waitLeft = 0 := rfl
@[simp] theorem blockReset_cw (s : State) : (blockReset s).cw = 0 := rfl
@[simp] theorem blockReset_sb (s : State) : (blockReset s).sb = 0 := rfl
@[simp] theorem blockReset_prn0 (s : State) : (blockReset s).prn0 = Vector.replicate 64 none := rfl
@[simp] theorem blockReset_prn1 (s : State) : (blockReset s).prn1 = Vector.replicate 64 none := rfl
@[simp] theorem blockReset_mem (s : State) : (blockReset s).mem = s.mem := rfl
@[simp] theorem blockReset_stale (s : State) : (blockReset s).stale = [] := rfl
@[simp] theorem blockReset_inputs (s : State) : (blockReset s).inputs = s.inputs := rfl
@[simp] theorem blockReset_statuses (s : State) : (blockReset s).statuses = s.statuses := rfl
@[simp] theorem blockReset_readies (s : State) : (blockReset s).readies = s.readies := rfl
@[simp] theorem blockReset_draws (s : State) : (blockReset s).draws = s.draws + 1 := rfl
@[simp] theorem blockReset_past (s : State) : (blockReset s).past = cutHistory s := rfl
@[simp] theorem blockReset_reads (s : State) : (blockReset s).reads = s.reads := rfl
@[simp] theorem blockReset_host (s : State) : (blockReset s).host = recordAfterReset s := rfl

end Sys2Proof.Machine
end

