-- ==== Sys2Proof/Laws/Ops.lean ====
section
/-! SUPPORT. What each shared operation can do, said once: the lemmas later proofs cite instead of unfolding. -/

namespace Sys2Proof.Machine

/-! Draws. -/

/-- A strobe's draw changes only the script and the draw counter. -/
theorem drawStatus_state (s : State) :
    ∃ script n, (drawStatus s).2 = { s with statuses := script, draws := n } := by
  unfold drawStatus
  split
  · exact ⟨_, s.draws, rfl⟩
  · exact ⟨s.statuses, _, rfl⟩

/-- A burst byte's draw changes only the script and the draw counter. -/
theorem drawReady_state (s : State) :
    ∃ script n, (drawReady s).2 = { s with readies := script, draws := n } := by
  unfold drawReady
  split
  · exact ⟨_, s.draws, rfl⟩
  · exact ⟨s.readies, _, rfl⟩

/-- A scripted answer to a strobe is the one drawn. -/
theorem drawStatus_cons {s : State} {a : Option Byte} {rest : List (Option Byte)} (h : s.statuses = a :: rest) :
    drawStatus s = (a, { s with statuses := rest }) := by
  unfold drawStatus
  rw [h]

/-- A scripted answer to a burst byte is the one drawn. -/
theorem drawReady_cons {s : State} {a : Bool} {rest : List Bool} (h : s.readies = a :: rest) :
    drawReady s = (a, { s with readies := rest }) := by
  unfold drawReady
  rw [h]

/-! One block step of each kind. -/

/-- A strobe step issues the strobe and holds, or completes it with the status drawn (R92). -/
theorem strobeStep_next {c : RadioCommand} {k : Byte → State → State} {s t : State} (h : strobeStep c k s = .next t) :
    ∃ script n, t = { s with issued := true, statuses := script, draws := n } ∨
      ∃ b, t = k b (answerStrobe c b { s with issued := true, statuses := script, draws := n }) := by
  obtain ⟨script, n, hd⟩ := drawStatus_state (issue s)
  refine ⟨script, n, ?_⟩
  unfold strobeStep at h
  split at h
  · rename_i s1 heq
    rw [heq] at hd
    exact .inl ((Host.Outcome.next.inj h).symm.trans hd)
  · rename_i b s1 heq
    rw [heq] at hd
    refine .inr ⟨b, ?_⟩
    simp only at hd
    obtain rfl : s1 = { s with issued := true, statuses := script, draws := n } := hd
    exact (Host.Outcome.next.inj h).symm

/-- A strobe step never stops. -/
theorem strobeStep_total (c : RadioCommand) (k : Byte → State → State) (s : State) : ∃ t, strobeStep c k s = .next t := by
  unfold strobeStep
  split <;> exact ⟨_, rfl⟩

/-- A strobe step under a script: the answer decides (R92, R102). -/
theorem strobeStep_cons {c : RadioCommand} {k : Byte → State → State} {s : State} {a : Option Byte}
    {rest : List (Option Byte)} (h : s.statuses = a :: rest) :
    strobeStep c k s = .next (match a with
      | none => { s with issued := true, statuses := rest }
      | some b => k b (answerStrobe c b { s with issued := true, statuses := rest })) := by
  unfold strobeStep
  rw [drawStatus_cons (s := issue s) h]
  cases a <;> rfl

/-- A wait step lets one unit of the interval pass, or ends the wait (R103). -/
theorem waitStep_next {kind : WaitKind} {k : State → State} {s t : State} (h : waitStep kind k s = .next t) :
    (∃ n, s.waitLeft = n + 1 ∧ t = { s with waitLeft := n }) ∨ (s.waitLeft = 0 ∧ t = k (record (.wait kind) s)) := by
  unfold waitStep at h
  split at h
  · exact .inr ⟨by assumption, (Host.Outcome.next.inj h).symm⟩
  · exact .inl ⟨_, by assumption, (Host.Outcome.next.inj h).symm⟩

/-- An admitted read of a byte with no race gives the byte of memory and changes nothing (R50). -/
theorem memRead_plain {s : State} {a : Nat} (ha : admitted s.params a = true) (hs : s.stale = []) :
    memRead s a = .ok (Memory.read s.mem a, s) := by
  simp [memRead, ha, staleBytes, hs]

/-- A read of host memory succeeds only inside HostAdmit, and changes at most the draw counter (R50, R54). -/
theorem memRead_ok {s s1 : State} {a : Nat} {b : Byte} (h : memRead s a = .ok (b, s1)) :
    admitted s.params a = true ∧ (∃ n, s1 = { s with draws := n }) ∧ (b = Memory.read s.mem a ∨ b ∈ staleBytes s a) := by
  unfold memRead at h
  split at h
  · rename_i ha
    split at h
    · obtain ⟨rfl, rfl⟩ := Prod.mk.inj (Except.ok.inj h)
      exact ⟨ha, ⟨s.draws, rfl⟩, .inl rfl⟩
    · rename_i old olds heq
      obtain ⟨rfl, rfl⟩ := Prod.mk.inj (Except.ok.inj h)
      refine ⟨ha, ⟨_, rfl⟩, ?_⟩
      rw [heq]
      have hlt : Config.racePick s.draws % (Memory.read s.mem a :: old :: olds).length
          < (Memory.read s.mem a :: old :: olds).length := Nat.mod_lt _ (by simp)
      have hget := (List.getD_eq_getElem (Memory.read s.mem a :: old :: olds) old hlt)
      rw [hget]
      have hmem := List.getElem_mem hlt
      generalize (Memory.read s.mem a :: old :: olds)[Config.racePick s.draws % (Memory.read s.mem a :: old :: olds).length] = x at hmem
      exact List.mem_cons.mp hmem
  · cases h

/-- A PRN read gives the byte the host wrote (R56). -/
theorem prnRead_ok {s : State} {sel : Bool} {i : Nat} {b : Byte} (h : prnRead s sel i = .ok b) :
    (s.prn sel)[i]? = some (some b) := by
  unfold prnRead at h
  split at h <;> cases h
  assumption

/-- Taking a byte changes at most the draw counter and the source (R37). -/
theorem takeByte_ok {s s1 : State} {b : Byte} (h : takeByte s = .ok (b, s1)) :
    ∃ n src, s1 = { s with draws := n, src := src } := by
  unfold takeByte at h
  split at h
  · split at h
    · rename_i heq
      obtain ⟨-, ⟨n, hn⟩, -⟩ := memRead_ok heq
      obtain ⟨rfl, rfl⟩ := Prod.mk.inj (Except.ok.inj h)
      exact ⟨n, _, by rw [hn]⟩
    · cases h
  · split at h
    · obtain ⟨rfl, rfl⟩ := Prod.mk.inj (Except.ok.inj h)
      exact ⟨s.draws, _, rfl⟩
    · cases h
  · obtain ⟨rfl, rfl⟩ := Prod.mk.inj (Except.ok.inj h)
    exact ⟨s.draws, s.src, rfl⟩

/-- Where the source stands after a byte was taken: one further (R37). -/
theorem takeByte_src {s s1 : State} {b : Byte} (h : takeByte s = .ok (b, s1)) :
    s1.src = match s.src with
      | .host p => .host (p + 1)
      | .prn sel i => .prn sel (i + 1)
      | .zero => .zero := by
  cases hsrc : s.src <;> simp only [takeByte, hsrc] at h ⊢
  · split at h
    · obtain ⟨rfl, rfl⟩ := Prod.mk.inj (Except.ok.inj h)
      rfl
    · cases h
  · split at h
    · obtain ⟨rfl, rfl⟩ := Prod.mk.inj (Except.ok.inj h)
      rfl
    · cases h
  · obtain ⟨rfl, rfl⟩ := Prod.mk.inj (Except.ok.inj h)
    exact hsrc

/-- A burst step closes the burst, holds, or transfers one byte (R94). -/
theorem burstStep_next {k : State → State} {s t : State} (h : burstStep k s = .next t) :
    (s.burstLeft = 0 ∧ t = k (closeBurst s)) ∨
    ∃ left, s.burstLeft = left + 1 ∧ ∃ script n,
      (t = { s with issued := true, readies := script, draws := n } ∨
       ∃ b s2, takeByte { s with issued := true, readies := script, draws := n } = .ok (b, s2) ∧
         t = { s2 with burstLeft := left, burstSent := s2.burstSent ++ [b] }) := by
  unfold burstStep at h
  split at h
  · exact .inl ⟨by assumption, (Host.Outcome.next.inj h).symm⟩
  · rename_i left hleft
    obtain ⟨script, n, hd⟩ := drawReady_state (issue s)
    refine .inr ⟨left, hleft, script, n, ?_⟩
    split at h
    · rename_i heq
      rw [heq] at hd
      exact .inl ((Host.Outcome.next.inj h).symm.trans hd)
    · rename_i s1 heq
      rw [heq] at hd
      simp only at hd
      split at h
      · rename_i b s2 hb
        exact .inr ⟨b, s2, hd ▸ hb, (Host.Outcome.next.inj h).symm⟩
      · cases h

/-- A burst with no byte left is over (R94). -/
theorem burstStep_closed {k : State → State} {s : State} (h : s.burstLeft = 0) :
    burstStep k s = .next (k (closeBurst s)) := by
  unfold burstStep
  rw [h]

/-- A burst holds while the transceiver side is not ready (R94). -/
theorem burstStep_held {k : State → State} {s : State} {left : Nat} {rest : List Bool} (h : s.burstLeft = left + 1)
    (hr : s.readies = false :: rest) : burstStep k s = .next { s with issued := true, readies := rest } := by
  unfold burstStep
  split
  · omega
  · rw [drawReady_cons (s := issue s) hr]
    rfl

/-- A burst whose byte the transceiver side is ready for takes it from its source (R94). -/
theorem burstStep_taken {k : State → State} {s s2 : State} {left : Nat} {rest : List Bool} {b : Byte}
    (h : s.burstLeft = left + 1) (hr : s.readies = true :: rest)
    (ht : takeByte { s with issued := true, readies := rest } = .ok (b, s2)) :
    burstStep k s = .next { s2 with burstLeft := left, burstSent := s2.burstSent ++ [b] } := by
  unfold burstStep
  split
  · omega
  · rename_i n hn
    obtain rfl : n = left := by omega
    rw [drawReady_cons (s := issue s) hr]
    simp only [issue]
    rw [ht]

/-! Dispatch. -/

/-- A dispatch while busy sets OVR and nothing else (R34, R183). -/
theorem dispatch_busy {i : Instr} {start : State → State} {s : State} (h : s.busy = true) :
    dispatch i start s = { s with ovr := true } := by
  simp [dispatch, h]

/-- A dispatch whose range leaves the address space sets RANGE after latching (R34, R184). -/
theorem dispatch_range {i : Instr} {start : State → State} {s : State} (h : s.busy = false)
    (hu : usesHostMemory i = true) (hr : rangeFails s.argAddr s.argLen = true) :
    dispatch i start s = { latchOperands s with range := true } := by
  simp [dispatch, h, hu, hr]

/-- Any other dispatch latches the operands and starts the operation (R34). -/
theorem dispatch_start {i : Instr} {start : State → State} {s : State} (h : s.busy = false)
    (hr : usesHostMemory i = true → rangeFails s.argAddr s.argLen = false) :
    dispatch i start s = start (latchOperands s) := by
  cases hu : usesHostMemory i
  · simp [dispatch, h, hu]
  · simp [dispatch, h, hr hu]

/-- Dispatch answers a next state in every state: no operation faults or is refused at dispatch (R182). -/
theorem exec_next (i : Instr) (s : State) : ∃ t, exec i s = .next t := by
  cases i <;> exact ⟨_, rfl⟩

/-! Phases and runs. -/

/-- With nothing queued only the block moves (R66). -/
theorem step_block {s : State} (h : s.inputs = []) : step s = blockStep s := by
  simp [step, nextMove, h]

/-- With an entry queued the agent it names moves. -/
theorem step_input {s : State} {x : Input} {rest : List Input} (h : s.inputs = x :: rest) :
    step s = inputStep x { s with inputs := rest } := by
  simp [step, nextMove, h]

/-- A run goes on from the state one step leads to. -/
theorem run_succ {s t : State} (h : step s = .next t) (k : Nat) :
    Host.Core.run core (k + 1) s = Host.Core.run core k t := by
  have h' : core.step s = .next t := h
  simp [Host.Core.run, h']

/-- A run of `m + n` steps is a run of `m` steps and then one of `n`. -/
theorem run_add {s t : State} {m : Nat} (h : Host.Core.run core m s = .next t) (n : Nat) :
    Host.Core.run core (m + n) s = Host.Core.run core n t := by
  induction m generalizing s with
  | zero =>
    obtain rfl : s = t := Host.Outcome.next.inj h
    simp
  | succ m ih =>
    rw [Nat.succ_add]
    cases hs : step s with
    | next u =>
      rw [run_succ hs] at h ⊢
      exact ih h
    | fault r =>
      have : core.step s = .fault r := hs
      simp [Host.Core.run, this] at h
    | refused r =>
      have : core.step s = .refused r := hs
      simp [Host.Core.run, this] at h

/-! The port history. -/

/-- In phase IDLE, as in every phase of no transaction and no wait, nothing of the history is in progress (R105). -/
theorem history_idle {s : State} (h : s.phase = .idle) : s.history = s.past := by
  simp [State.history, State.openEvent, State.inFlight, Phase.waitKind, Phase.command, h]

/-- A strobe that has been issued stands in the history without a status (R92). -/
theorem history_strobe {s : State} {c : RadioCommand} (hp : s.phase.command = some c) (hi : s.issued = true) :
    s.history = s.past ++ [.strobe (s.params.strobeCode.code c) none] := by
  cases h : s.phase <;> simp_all [State.history, State.openEvent, State.inFlight, Phase.waitKind, Phase.command, Txn.event]

/-- A transaction that has not been issued does not stand in the history. -/
theorem history_unissued {s : State} (hw : s.phase.waitKind = none) (hi : s.issued = false) : s.history = s.past := by
  simp [State.history, State.openEvent, State.inFlight, hw, hi]

/-! Conditions on status bytes. -/

/-- An admitted instance keeps R10's bound. -/
theorem Params.freeMask_le (p : Params) : p.freeMask.toNat ≤ Config.burstMax := by
  have h := p.ok
  simp only [RawParams.admissible, decide_eq_true_eq] at h
  exact h

end Sys2Proof.Machine
end

