-- ==== Sys2Proof/Laws/PerInstr.lean ====
section
/-! SUPPORT. Facts about every operation as syntax, one lemma per constructor (LAWS.json names the family). -/

namespace Sys2Proof.Laws.EncodedFields

/-- The encoded word of an operation holds its opcode in OPC and whatever was put into the ignored bits (spec 30_encoding.md R70),
and its opcode is one of the map's (R71). -/
def Statement (i : Instr) : Prop :=
  legalOpcodes.contains i.opcode = true ∧
    ∀ hi : BitVec 24, opcodeOf (encode hi i) = i.opcode ∧ (encode hi i).extractLsb' 8 24 = hi

/-- The fields of a word made of its ignored bits and an opcode. -/
theorem append_fields (hi : BitVec 24) (opc : Byte) :
    (hi ++ opc : Word).extractLsb' 0 8 = opc ∧ (hi ++ opc : Word).extractLsb' 8 24 = hi := by
  constructor
  · ext j hj
    have h := BitVec.getLsbD_append (x := hi) (y := opc) (i := j)
    simp only [hj, if_true] at h
    rw [BitVec.getLsbD_eq_getElem hj] at h
    simpa [hj] using h
  · ext j hj
    have h := BitVec.getLsbD_append (x := hi) (y := opc) (i := 8 + j)
    have hn : ¬ 8 + j < 8 := by omega
    simp only [hn, if_false] at h
    simpa [hj] using h

theorem fecEnc : Statement .fecEnc := ⟨by decide, fun hi => append_fields hi _⟩
theorem flushIdle : Statement .flushIdle := ⟨by decide, fun hi => append_fields hi _⟩
theorem rawTx : Statement .rawTx := ⟨by decide, fun hi => append_fields hi _⟩
theorem rawCont : Statement .rawCont := ⟨by decide, fun hi => append_fields hi _⟩
theorem rawZero : Statement .rawZero := ⟨by decide, fun hi => append_fields hi _⟩
theorem rawEnd : Statement .rawEnd := ⟨by decide, fun hi => append_fields hi _⟩
theorem txByte : Statement .txByte := ⟨by decide, fun hi => append_fields hi _⟩
theorem txBuf : Statement .txBuf := ⟨by decide, fun hi => append_fields hi _⟩

end Sys2Proof.Laws.EncodedFields
end

