-- ==== Sys2Proof/Laws/Safety.lean ====
section
/-! SUPPORT. Small facts about the terms of Safety.lean: idle states, streams, runs that have come to an end. -/

namespace Sys2Proof.Machine

/-- An idle state with nothing left of a transfer meets the controller's invariant. -/
theorem inv_of_idle {s : State} (ho : s.op = none) (hb : s.busy = false) (hp : s.phase = .idle) (hr : s.rem = 0)
    (hl : s.burstLeft = 0) (hs : s.burstSent = []) (hi : s.issued = false) : Inv s := by
  refine ⟨?_, ?_, ?_, ?_, ?_⟩
  · simp [SequenceInv, ho, hb, hp]
  · simp [BurstInv, Phase.bursting, hp, hl, hs, hi]
  · simp [SourceInv, ho, hr]
  · simp [ProgressInv, Phase.starting, Phase.refilling, Phase.ending, hp]
  · simp [SymbolInv, ho]

/-- Under the invariant, BUSY = 0 says that nothing is in progress and nothing is left of a transfer. -/
theorem idle_of_inv {s : State} (h : Inv s) (hb : s.busy = false) :
    s.op = none ∧ s.phase = .idle ∧ s.rem = 0 ∧ s.burstLeft = 0 ∧ s.burstSent = [] ∧ s.issued = false := by
  obtain ⟨hseq, hburst, hsrc, -, -⟩ := h
  have hop : s.op = none := by
    unfold SequenceInv at hseq
    split at hseq
    · assumption
    · simp_all
  simp only [SequenceInv, hop] at hseq
  simp only [SourceInv, hop] at hsrc
  simp only [BurstInv, hseq.2, Phase.bursting, Phase.command] at hburst
  exact ⟨hop, hseq.2, hsrc, by simpa using hburst⟩

/-- The stream of two stretches is the one after the other. -/
@[simp] theorem fifoStream_append (es fs : List PortEvent) : fifoStream (es ++ fs) = fifoStream es ++ fifoStream fs := by
  simp [fifoStream]

@[simp] theorem fifoStream_nil : fifoStream [] = [] := rfl
@[simp] theorem fifoStream_strobe (c : Byte) (b : Option Byte) : fifoStream [.strobe c b] = [] := rfl
@[simp] theorem fifoStream_wait (k : WaitKind) : fifoStream [.wait k] = [] := rfl
@[simp] theorem fifoStream_cut (n : Nat) : fifoStream [.cut n] = [] := rfl
@[simp] theorem fifoStream_burst (bs : List Byte) : fifoStream [.burst bs] = bs := by
  simp [fifoStream, PortEvent.bytes]

/-- The events since a point of the history, when an event is appended after it. -/
theorem eventsSince_append {n : Nat} {s : State} (hn : n ≤ s.history.length) {t : State} {es : List PortEvent}
    (ht : t.history = s.history ++ es) : eventsSince n t = eventsSince n s ++ es := by
  simp [eventsSince, ht, List.drop_append_of_le_length hn]

/-- A run of `k` steps has come to a state that is not busy. -/
def endsIdle (k : Nat) (s : State) : Bool :=
  match Host.Core.run core k s with
  | .next t => !t.busy
  | .fault _ => false
  | .refused _ => false

/-- Such a run has an end. -/
theorem endsIdle_run {k : Nat} {s : State} (h : endsIdle k s = true) :
    ∃ t : State, Host.Core.run core k s = .next t ∧ t.busy = false := by
  unfold endsIdle at h
  split at h
  · rename_i t ht
    exact ⟨t, ht, by simpa using h⟩
  · cases h
  · cases h

/-! The machine whose host keeps its duties (60_exceptions.md R196). -/

/-- With nothing queued the block moves in it as in the machine. -/
theorem dutifulStep_block {s : State} (h : s.inputs = []) : dutifulStep s = some (step s) := by simp [dutifulStep, h]

/-- The next move exists exactly if it keeps the duties, and is then the machine's. -/
theorem dutifulStep_input {s : State} {x : Input} {rest : List Input} (h : s.inputs = x :: rest) :
    dutifulStep s = if keepsDuties s x then some (step s) else none := by simp [dutifulStep, h]

/-- A launch goes on from the state one step leads to. -/
theorem dutifulRun_succ {s t : State} (h : dutifulStep s = some (.next t)) (k : Nat) :
    dutifulRun (k + 1) s = dutifulRun k t := by simp [dutifulRun, h]

/-- Where no event follows the beginning of the order, no transmission is in progress. -/
theorem transmitting_fresh {s : State} (h : s.history.length ≤ s.host.orderFrom) : transmitting s = false := by
  simp [transmitting, List.drop_of_length_le h]

/-- Block reset leaves the cut history, with nothing in progress. -/
theorem blockReset_history (s : State) : (blockReset s).history = cutHistory s := by
  rw [history_idle (blockReset_phase s), blockReset_past]

/-- A reset that cut an operation asks for `txInit()` anew and leaves no transmission in progress (R211). -/
theorem blockReset_cut {s : State} (h : s.busy = true) :
    (blockReset s).host.txInitDone = false ∧ transmitting (blockReset s) = false := by
  refine ⟨by simp [recordAfterReset, h], transmitting_fresh ?_⟩
  simp [blockReset_history, recordAfterReset, h]

end Sys2Proof.Machine
end

