-- ==== Sys2Proof/Tests/Slice0.lean ====
section
/-! SUPPORT. Tests from the spec's vectors (95_test_vectors.md, under its example instance EX), ill-formed terms that the checks
refuse, and for every statement with hypotheses a state that meets them (witness_...). -/

namespace Sys2Proof.Tests

open Sys2Proof Sys2Proof.Machine

/-- The example instance EX of 95_test_vectors.md section 0; the durations are 0 and HostAdmit is 0x1000 to 0xFFFF. -/
def exRaw : RawParams where
  fecMasks := #v[0x17, 0x2E, 0x5C, 0xB8, 0x71, 0xE2, 0xC5, 0x8B]
  strobeCode := { resetCore := 0x30, flushTx := 0x3B, goIdle := 0x36, startTx := 0x35, nop := 0x3D, sleep := 0x39,
                  xoff := 0x32, wor := 0x38 }
  idleMask := 0xF0
  settleMask := 0xC0
  freeMask := 0x0F
  endStatus := 0x0F
  refillWait := 0
  jitterMin := 0
  jitterMax := 0
  debugSpacing := false
  fixedSpacing := 0
  regBase := 0x40000000
  hostAdmit := [(0x1000, 0xF000)]

def ex : Params := { exRaw with ok := by decide }

/-- Just reset, under EX. -/
def idle : State := State.initial ex

/-- The next state of an outcome, for tests. -/
def nextOf (o : Host.Outcome State Fault Refusal) : State :=
  match o with
  | .next t => t
  | .fault _ => idle
  | .refused _ => idle

/-- Whether an outcome is a next state with a property. -/
def nextIs (o : Host.Outcome State Fault Refusal) (p : State → Bool) : Bool :=
  match o with
  | .next t => p t
  | .fault _ => false
  | .refused _ => false

/-- One host access in the state `s`. -/
def access (x : Input) (s : State) : Host.Outcome State Fault Refusal := step { s with inputs := [x] }

/-! Ill-formed terms. -/

theorem test_illegal_opcode_ill_formed : CmdWord.wellFormed 0x00000000 = false := by decide
theorem test_halfword_access_ill_formed : HostAccess.wellFormed 2 0x004 = false := by decide
theorem test_misaligned_access_ill_formed : HostAccess.wellFormed 4 0x006 = false := by decide
theorem test_wide_free_mask_ill_formed : RawParams.wellFormed { exRaw with freeMask := 0x7F } = false := by decide
theorem test_equal_strobe_codes_ill_formed :
    StrobeCodes.distinct { exRaw.strobeCode with nop := 0x36 } = false ∧ exRaw.strobeCode.distinct = true := by decide
/-- R190: R10 alone is a ground for BAD_PARAMS. -/
theorem test_empty_jitter_interval_launches : RawParams.wellFormed { exRaw with jitterMin := 1 } = true := by decide
theorem test_every_operation_well_formed : Instr.wellFormed .txBuf = true := by decide

/-! Words written out from 30_encoding.md R70 and R71: bits [31:8] any, bits [7:0] OPC. -/

theorem test_decode_fec_enc : decode 0b11111111111111111111111100000001#32 = .ok .fecEnc := by decide
theorem test_decode_flush_idle : decode 0b00000000000000000000000000010000#32 = .ok .flushIdle := by decide
theorem test_decode_raw_tx : decode 0b00000000000000000000000000010001#32 = .ok .rawTx := by decide
theorem test_decode_raw_cont : decode 0b00000000000000000000000000010010#32 = .ok .rawCont := by decide
theorem test_decode_raw_zero : decode 0b10000000000000000000000000010011#32 = .ok .rawZero := by decide
theorem test_decode_raw_end : decode 0b00000000000000000000000000010100#32 = .ok .rawEnd := by decide
theorem test_decode_tx_byte : decode 0b00000000000000000000000000100000#32 = .ok .txByte := by decide
theorem test_decode_tx_buf : decode 0b00000000000000000000000100100001#32 = .ok .txBuf := by decide
/-- The neighbours of the map's opcodes are illegal (R74, V-E1). -/
theorem test_decode_illegal :
    decode 0x02#32 = .error (.illegalOpcode 0x02) ∧ decode 0x0F#32 = .error (.illegalOpcode 0x0F) ∧
    decode 0x15#32 = .error (.illegalOpcode 0x15) ∧ decode 0x22#32 = .error (.illegalOpcode 0x22) ∧
    decode 0xFF#32 = .error (.illegalOpcode 0xFF) := by decide
/-- The eight rows of opcode_table.json. -/
theorem test_table_words :
    [0x01, 0x10, 0x11, 0x12, 0x13, 0x14, 0x20, 0x21].map (decodeTableWord 8) =
      [some .fecEnc, some .flushIdle, some .rawTx, some .rawCont, some .rawZero, some .rawEnd, some .txByte, some .txBuf] := by
  decide
/-- The first command after reset is run. -/
theorem test_first_command_runs : nextIs (step (State.reset.withFetchWord 8 0x11)) (fun t => t.busy) = true := by decide

/-! FEC encoder and chip map. -/

/-- V-F2, V-F3. -/
theorem test_fec_parity :
    [0x01, 0x02, 0x80, 0x81, 0x5A, 0xFF, 0x00].map (fecParity exRaw.fecMasks) =
      [0xD1, 0xA3, 0xE8, 0x39, 0x44, 0x00, 0x00] := by decide
/-- V-C1. -/
theorem test_chip_word : chipWord exRaw.fecMasks 0x5A = 0x39222D58#30 ∧ chipWord exRaw.fecMasks 0x81 = 0x391CC0D8#30 := by
  decide
/-- V-C1: `1110010 01000100 01011010 1011000`. -/
theorem test_symbol_chips :
    (symbolChips exRaw.fecMasks 0x5A).map Bool.toNat =
      [1, 1, 1, 0, 0, 1, 0, 0, 1, 0, 0, 0, 1, 0, 0, 0, 1, 0, 1, 1, 0, 1, 0, 1, 0, 1, 1, 0, 0, 0] := by decide
/-- V-F4. -/
theorem test_fec_enc : nextIs (exec .fecEnc { idle with argByte := 0x01 })
    (fun t => t.result == 0xD1 && !t.busy && t.history == []) = true := by decide

/-! Dispatch and errors (V-E1 to V-E6). -/

/-- A RAW_TX in progress, as its dispatch leaves it. -/
def sending : State := nextOf (exec .rawTx { idle with argAddr := 0x2000, argLen := 2 })

/-- V-E1. -/
theorem test_illegal_sets_ill : nextIs (access (.write 4 0 0x22) idle) (fun t => statusWord t == 0x00000002) = true := by decide
/-- V-E2: an illegal opcode while busy gives OVR, not ILL; the phase is FLUSH_CMD. -/
theorem test_busy_before_illegal :
    nextIs (access (.write 4 0 0xFF) sending) (fun t => statusWord t == 0x00000105) = true := by decide
/-- V-E3. -/
theorem test_prn_write_while_busy :
    nextIs (access (.write 4 0x114 0x99) sending) (fun t => t.ovr && t.prn0[5] == none) = true := by decide
/-- V-E4. -/
theorem test_range_error :
    nextIs (exec .rawTx { idle with argAddr := 0xFFFFFFF0, argLen := 0x20 })
      (fun t => t.range && !t.busy && t.lLen == 0x20) = true := by decide
/-- V-E4: `ADDR + LEN = 2^32` exactly is accepted. -/
theorem test_range_edge :
    nextIs (exec .txBuf { idle with argAddr := 0xFFFFFFF0, argLen := 0x10 })
      (fun t => !t.range && t.busy && t.phase == .symFetch) = true := by decide
/-- V-E5. -/
theorem test_clear_one_flag :
    nextIs (access (.write 4 4 0x00000004) { idle with lastRStatus := 0x0F, ill := true, ovr := true, range := true })
      (fun t => statusWord t == 0x000F000A) = true := by decide
/-- V-E6. -/
theorem test_reserved_bits :
    nextIs (access (.write 4 0xC 0xFFFF1234) idle) (fun t => (regRead 0xC t).1 == 0x00001234) = true ∧
    nextIs (access (.write 4 8 0x1FF) idle) (fun t => (regRead 8 t).1 == 0xFF) = true ∧
    nextIs (access (.read 4 0x20) idle) (fun t => t.reads == [(0x20, 0)]) = true := by decide

/-! Steps of the controller. -/

/-- V-S1: 0x1F leaves the flush poll where it is, 0x0F completes FLUSH_IDLE. -/
theorem test_flush_poll :
    nextIs (step { idle with op := some .flushIdle, busy := true, phase := .flushPoll, statuses := [some 0x1F] })
      (fun t => t.phase == .flushPoll && t.busy) = true ∧
    nextIs (step { idle with op := some .flushIdle, busy := true, phase := .flushPoll, statuses := [some 0x0F] })
      (fun t => statusWord t == 0x000F0000 && t.history == [.strobe 0x3D (some 0x0F)]) = true := by decide
/-- V-S3: 0x28 with 21 bytes left gives a burst of 8; 0x20 gives a burst of no bytes. -/
theorem test_refill_query :
    nextIs (step { idle with op := some .rawTx, busy := true, phase := .refillQuery, rem := 21, statuses := [some 0x28] })
      (fun t => t.burstLeft == 8 && t.phase == .refillWrite) = true ∧
    nextIs (step { idle with op := some .rawTx, busy := true, phase := .refillQuery, rem := 13, statuses := [some 0x20] })
      (fun t => t.burstLeft == 0 && t.phase == .refillWrite) = true := by decide
/-- R92, R94: a strobe and a burst stand in the history while the block holds on them. -/
theorem test_held_transactions :
    nextIs (step { sending with statuses := [none] }) (fun t => t.history == [.strobe 0x36 none]) = true ∧
    nextIs (step { sending with phase := .load, burstLeft := 2, readies := [false] }) (fun t => t.history == [.burst []]) =
      true := by decide
/-- R210: a burst that reset cuts keeps the bytes transferred. -/
theorem test_cut_burst :
    nextIs (access .reset { sending with phase := .load, issued := true, burstLeft := 1, burstSent := [0xA0] })
      (fun t => t.history.take 1 == [.burst [0xA0]] && t.history.length == 2) = true := by decide
/-- Just reset, after `init()` and `txInit()`: the start state of the programs of section 3. -/
def prepared : State := { idle with host := { initDone := true, txInitDone := true, orderFrom := 0 } }

/-- R196: the duties of a host that has written no pattern and sent nothing. -/
theorem test_host_duties :
    keepsDuties prepared (.write 4 0 0x20) = false ∧ keepsDuties prepared (.write 4 0 0x14) = false ∧
    keepsDuties prepared (.write 4 0 0x11) = true ∧ keepsDuties sending (.memWrite 0x2001 7) = false ∧
    keepsDuties sending (.memWrite 0x2002 7) = true ∧
    keepsDuties { prepared with past := [.strobe 0x35 (some 0x0F)] } (.write 4 0 0x14) = true := by decide
/-- R213: no radio call before `init()`, no transmission before `txInit()`, and not `txInit()` first; FEC_ENC needs neither. -/
theorem test_preparation_order :
    keepsDuties idle (.write 4 0 0x10) = false ∧ keepsDuties (hostInit idle) (.write 4 0 0x10) = true ∧
    keepsDuties (hostInit idle) (.write 4 0 0x11) = false ∧
    keepsDuties idle (.write 4 0 0x11) = false ∧ keepsDuties idle .txInit = false ∧
    keepsDuties idle (.write 4 0 0x01) = true ∧
    dutifulRun 3 { idle with inputs := [.init, .txInit, .write 4 0 0x11] } =
      some (step { prepared with inputs := [.write 4 0 0x11] }) := ⟨rfl, rfl, rfl, rfl, rfl, rfl, rfl⟩

/-- A transmission whose RAW_CONT is in its refill wait: no transaction is in flight. -/
def continuing : State :=
  { nextOf (exec .rawCont { prepared with argAddr := 0x2000, argLen := 2 }) with past := [.strobe 0x35 (some 0x0F)] }

/-- R211: after a reset that cut a wait no transmission is in progress and none may begin before `txInit()`; then RAW_TX may. -/
theorem test_reset_cuts_wait :
    transmitting continuing = true ∧
    nextIs (access .reset continuing)
      (fun t => !mayDispatch t .rawCont && !mayDispatch t .rawTx && nextIs (access .txInit t) (mayDispatch · .rawTx)) = true := by
  decide
/-- R211: a reset while BUSY = 0 asks nothing new. -/
theorem test_idle_reset_keeps_transmission :
    nextIs (access .reset { prepared with past := [.strobe 0x35 (some 0x0F)] })
      (fun t => mayDispatch t .rawCont && t.host.txInitDone) = true := by decide
/-- R104: no `txInit()` while BUSY = 1. -/
theorem test_no_port_move_while_busy :
    keepsDuties continuing .txInit = false ∧ nextIs (access .txInit continuing) (fun t => t == continuing) = true := by decide
/-- V-S9: RAW_CONT and RAW_ZERO with `LEN = 0` issue nothing and are complete. -/
theorem test_empty_continuation :
    nextIs (exec .rawCont idle) (fun t => !t.busy && t.phase == .idle && t.history == []) = true ∧
    nextIs (exec .rawZero idle) (fun t => !t.busy && t.phase == .idle && t.history == []) = true := by decide
/-- V-S5: 0x7F is not END_STATUS. -/
theorem test_end_poll :
    nextIs (step { nextOf (exec .rawEnd idle) with statuses := [some 0x7F] }) (fun t => t.phase == .endPoll) = true ∧
    nextIs (step { nextOf (exec .rawEnd idle) with statuses := [some 0x0F] }) (fun t => t.phase == .endIdle) = true := by
  decide
/-- V-T1: TX_BYTE 0x5A starts with CW = 0x39222D58 and chip 0 from PRN1. -/
theorem test_tx_byte_starts :
    nextIs (exec .txByte { idle with argByte := 0x5A })
      (fun t => t.cw == 0x39222D58#30 && t.src == .prn true 0 && t.rem == 64 && t.phase == .flushCmd) = true := by decide
/-- V-T3. -/
theorem test_tx_buf_empty : nextIs (exec .txBuf idle) (fun t => !t.busy && t.history == []) = true := by decide
/-- V-T2: the first PRN byte of an unwritten pattern faults. -/
theorem test_unwritten_prn :
    (match step { nextOf (exec .txByte idle) with phase := .load, burstLeft := 64, readies := [true] } with
      | .fault f => f == .unwrittenPrn true 0
      | .next _ => false
      | .refused _ => false) = true := by decide
/-- `tx.buf a, n` (R80). -/
theorem test_pseudo :
    (Pseudo.txBuf 0x6000 2).expand =
      [.write 4 0x010 0x6000, .write 4 0x00C 2, .write 4 0x000 0x21, .poll 0x004 0x1 0x0] := by decide

/-! Witnesses: for each statement with hypotheses, a state and operands that meet them. -/

/-- Both patterns written. -/
def loaded : State := { idle with prn0 := Vector.replicate 64 (some 0x11), prn1 := Vector.replicate 64 (some 0x22) }

/-- A symbol just begun. -/
def inSymbol : State :=
  { loaded with
    op := some .txByte, busy := true, phase := .flushCmd, rem := 64, src := .prn true 0, sb := 0x5A,
    cw := chipWord ex.fecMasks 0x5A, statuses := [some 0x0F] }

/-- A burst in flight from a source. -/
def bursting (src : Src) : State :=
  { loaded with op := some .rawCont, busy := true, phase := .refillWrite, rem := 3, burstLeft := 3, readies := [true], src := src }

theorem idle_inv : Inv idle := inv_of_idle rfl rfl rfl rfl rfl rfl rfl

theorem sending_inv : Inv sending := by
  refine ⟨?_, ?_, ?_, ?_, ?_⟩
  · unfold SequenceInv; exact ⟨rfl, rfl⟩
  · unfold BurstInv; decide
  · exact ⟨by decide, by decide, 0x2000, rfl, by decide⟩
  · unfold ProgressInv; decide
  · unfold SymbolInv; decide

theorem inSymbol_inv : Inv inSymbol := by
  refine ⟨?_, ?_, ?_, ?_, ?_⟩
  · unfold SequenceInv; exact ⟨rfl, rfl⟩
  · unfold BurstInv; decide
  · exact ⟨rfl, by decide, 0, by decide, by decide⟩
  · unfold ProgressInv; decide
  · unfold SymbolInv; decide

theorem witness_StepRunsDecodedCommand :
    (idle.withFetchWord 32 0x11).inputs = .write 4 0 0x11 :: [] ∧ decode 0x11 = .ok .rawTx := by decide
theorem witness_IllegalOpcodeSetsIll :
    idle.busy = false ∧ legalOpcodes.contains ((0x22#32).extractLsb' 0 8) = false ∧
      legalOpcodes.contains ((0x00#32).extractLsb' 0 8) = false := by decide
theorem witness_WritesWhileBusy :
    sending.busy = true ∧ 0x100 % 4 = 0 ∧ 0x100 ≤ 0x100 ∧ 0x100 < 0x300 ∧ 0x2FC % 4 = 0 ∧ 0x100 ≤ 0x2FC ∧ 0x2FC < 0x300 := by
  decide
theorem witness_RangeErrorAtDispatch :
    idle.busy = false ∧ 0 < (0x20#16).toNat ∧ 2 ^ 32 < (0xFFFFFFF0#32).toNat + (0x20#16).toNat ∧
      (0xFFFFFFF0#32).toNat + (0x10#16).toNat ≤ 2 ^ 32 := by decide
theorem witness_FecEncWritesResult : idle.busy = false ∧ sending.busy = true ∧ ∃ t, exec .fecEnc idle = .next t :=
  ⟨rfl, rfl, exec_next _ _⟩
theorem witness_FlushIdleAndRawEndBegin : idle.busy = false := rfl
theorem witness_RawTxBegins :
    idle.busy = false ∧ idle.argLen.toNat = 0 ∧ (0xFFFFFFF0#32).toNat + (0x10#16).toNat ≤ 2 ^ 32 := by decide
theorem witness_RawContBegins : idle.busy = false ∧ idle.argLen.toNat = 0 ∧ (0x2000#32).toNat + (2#16).toNat ≤ 2 ^ 32 := by decide
theorem witness_RawZeroBegins : idle.busy = false := rfl
theorem witness_TxByteBegins : idle.busy = false := rfl
theorem witness_TxBufBegins : idle.busy = false ∧ idle.argLen.toNat = 0 ∧ (0x6000#32).toNat + (2#16).toNat ≤ 2 ^ 32 := by decide
theorem witness_FecEncFrame : ∃ t, exec .fecEnc idle = .next t := exec_next _ _
theorem witness_StreamDispatchFrame : ∃ t, exec .rawTx idle = .next t := exec_next _ _
theorem witness_TransmitDispatchFrame : ∃ t, exec .txBuf idle = .next t := exec_next _ _
theorem witness_BlockStepFrame : inSymbol.inputs = [] ∧ ∃ t, step inSymbol = .next t := ⟨rfl, _, rfl⟩
theorem witness_MinDistanceForcesParityWeight : FecMinDist5 exRaw.fecMasks := by
  unfold FecMinDist5
  decide
theorem witness_StrobeHoldsOrCompletes :
    inSymbol.inputs = [] ∧
      (inSymbol.phase, 0x36#8) ∈
        [(Phase.flushCmd, inSymbol.params.strobeCode.goIdle), (.flushPoll, inSymbol.params.strobeCode.nop),
         (.fifoFlush, inSymbol.params.strobeCode.flushTx), (.start, inSymbol.params.strobeCode.startTx),
         (.settlePoll, inSymbol.params.strobeCode.nop), (.refillQuery, inSymbol.params.strobeCode.nop),
         (.endPoll, inSymbol.params.strobeCode.nop), (.endIdle, inSymbol.params.strobeCode.goIdle)] ∧
      inSymbol.statuses = some 0x0F :: [] ∧
      ({ inSymbol with statuses := [none] }).statuses = none :: [] := by decide
theorem witness_ControllerFollowsPhaseTable : Inv inSymbol ∧ inSymbol.inputs = [] ∧ ∃ t, step inSymbol = .next t :=
  ⟨inSymbol_inv, rfl, _, rfl⟩
theorem witness_RefillQueryChoosesBurst :
    ∃ s : State, s.inputs = [] ∧ s.phase = .refillQuery ∧ s.statuses = some 0x28 :: [] :=
  ⟨{ sending with phase := .refillQuery, statuses := [some 0x28] }, rfl, rfl, rfl⟩
theorem witness_BurstTransfersSourceBytes :
    (bursting .zero).inputs = [] ∧ (bursting .zero).phase.bursting = true ∧ (bursting .zero).burstLeft = 2 + 1 ∧
      (bursting .zero).readies = true :: [] ∧ ({ bursting .zero with readies := [false] }).readies = false :: [] ∧
      (bursting (.host 0x1000)).src = .host 0x1000 ∧ admitted (bursting (.host 0x1000)).params 0x1000 = true ∧
      (bursting (.host 0x1000)).stale = [] ∧ ((bursting (.prn true 63)).prn true)[63]? = some (some 0x22) ∧
      ({ bursting .zero with burstLeft := 0 }).burstLeft = 0 ∧ ({ bursting .zero with phase := .load }).phase = .load := by
  decide
theorem witness_WaitsAlwaysEnd :
    ∃ s u : State, s.inputs = [] ∧ s.phase = .refillWait ∧ s.waitLeft = 0 ∧ u.inputs = [] ∧ u.phase = .symWait :=
  ⟨{ sending with phase := .refillWait }, { sending with phase := .symWait, waitLeft := 5 }, rfl, rfl, rfl, rfl, rfl⟩
theorem witness_JitterWithinBounds :
    ∃ s : State, s.inputs = [] ∧ s.phase = .endIdle ∧ s.op = some .txBuf ∧ s.symidx.toNat + 1 < s.lLen.toNat ∧
      s.statuses = some 0x0F :: [] ∧ s.params.debugSpacing = false ∧ s.params.jitterMin ≤ s.params.jitterMax :=
  ⟨{ inSymbol with op := some .txBuf, phase := .endIdle, lLen := 2 }, rfl, rfl, rfl, by decide, rfl, rfl, by decide⟩
theorem witness_JitterFixedSpacing :
    ∃ s : State, s.phase = .endIdle ∧ s.op = some .txBuf ∧ s.symidx.toNat + 1 < s.lLen.toNat ∧ s.params.debugSpacing = true :=
  ⟨{ inSymbol with
      op := some .txBuf, phase := .endIdle, lLen := 2,
      params := { ({ exRaw with debugSpacing := true } : RawParams) with ok := by decide } }, rfl, rfl, by decide, rfl⟩
theorem witness_BadParametersRefused :
    64 < ({ exRaw with freeMask := 0x41 } : RawParams).freeMask.toNat ∧
      ({ exRaw with freeMask := 0x40 } : RawParams).freeMask.toNat ≤ 64 := by decide
theorem witness_BlockReadsThatStop :
    (bursting .zero).inputs = [] ∧ (bursting .zero).phase.bursting = true ∧ (bursting .zero).burstLeft = 2 + 1 ∧
      (bursting .zero).readies = true :: [] ∧
      (({ bursting (.prn true 0) with prn1 := idle.prn1 } : State).prn true)[0]? = some none ∧
      admitted (bursting (.host 0x0FFF)).params 0x0FFF = false ∧ admitted (bursting (.host 0x10000)).params 0x10000 = false ∧
      ({ inSymbol with phase := .symFetch } : State).phase = .symFetch ∧
      admitted inSymbol.params (inSymbol.lAddr.toNat + inSymbol.symidx.toNat) = false := by decide
theorem witness_BlockReadsThatStop_duties :
    idle.busy = false ∧ decode 0x21 = .ok .txBuf ∧ mayDispatch idle .txBuf = false ∧ mayDispatch idle .rawZero = false := by
  decide
theorem witness_BlockReadsThatStop_dutiful :
    Inv inSymbol ∧ inSymbol.inSymbol = true ∧ prnLoaded inSymbol = true ∧ ∃ t, dutifulStep inSymbol = some (.next t) :=
  ⟨inSymbol_inv, rfl, by decide, _, rfl⟩
theorem witness_BlockReadsThatStop_preparation :
    idle.busy = false ∧ decode 0x01 = .ok .fecEnc ∧ decode 0x10 = .ok .flushIdle ∧ idle.host.initDone = false ∧ prepared.busy = false ∧ prepared.host.initDone = true ∧ continuing.busy = true ∧
      Inv { prepared with inputs := [.reset] } :=
  ⟨rfl, rfl, rfl, rfl, rfl, rfl, rfl, inv_of_idle rfl rfl rfl rfl rfl rfl rfl⟩
theorem witness_OddAccessesRefused : 2 ≠ 4 ∧ 0x006 % 4 ≠ 0 := by decide
theorem witness_StatusRegisterFields : ({ idle with inputs := [.read 4 0x004] } : State).inputs = .read 4 0x004 :: [] := rfl
theorem witness_ReadOnlyAndReservedOffsets :
    0x014 % 4 = 0 ∧ (0x014 ≤ 0x0FC ∧ 0x0FC < 0x100) ∧ 0x0FC % 4 = 0 ∧ 0x020 ≤ 0x020 ∧ 0x300 ≤ 0x300 ∧ 0x300 % 4 = 0 := by
  decide
theorem witness_PrnRegisters :
    idle.busy = false ∧ (loaded.prn false)[(0 : Fin 64)] = some 0x11 ∧ (loaded.prn true)[(63 : Fin 64)] = some 0x22 := by decide
theorem witness_ReadsHaveNoSideEffect :
    0x1FC % 4 = 0 ∧ ({ idle with inputs := [.read 4 0x1FC] } : State).inputs = .read 4 0x1FC :: [] := by decide
theorem witness_RacedReadIsOldOrNew :
    Memory.wf sending.mem = true ∧ sending.stale = [] ∧ inBuffer sending (0x2000#32).toNat = true ∧
      inBuffer sending (0x2001#32).toNat = true ∧ admitted sending.params (0x2000#32).toNat = true := by decide
theorem witness_RacedReadIsOldOrNew_dutiful :
    sending.stale = [] ∧ (∃ t, dutifulStep { sending with inputs := [.memWrite 0x2002 7] } = some (.next t)) ∧
      ∃ o, dutifulRun 2 { idle with inputs := [.init, .txInit] } = some o := ⟨rfl, ⟨_, rfl⟩, _, rfl⟩
theorem witness_IdleBlockWaits : idle.phase = .idle ∧ idle.inputs = [] := by decide
theorem witness_StepKeepsControllerInvariant :
    (Inv inSymbol ∧ ∃ t, step inSymbol = .next t) ∧ Inv sending ∧ ∃ t, step { sending with inputs := [.reset] } = .next t :=
  ⟨⟨inSymbol_inv, _, rfl⟩, sending_inv, _, rfl⟩
theorem witness_StepKeepsMemoryForm :
    Memory.wf [(0x2000, (1 : Byte)), (0x2001, 2)] = true ∧ ∃ t, step { idle with inputs := [.memWrite 0x2000 7] } = .next t :=
  ⟨by decide, _, rfl⟩
theorem witness_BurstsNeverExceedLimit :
    Inv inSymbol ∧ [PortEvent.burst (List.replicate 64 0)].all PortEvent.burstFits = true ∧ ∃ t, step inSymbol = .next t :=
  ⟨inSymbol_inv, by decide, _, rfl⟩
theorem witness_RefillFitsReportedSpace :
    ∃ s : State, s.phase = .refillWrite ∧ RefillFitsInv s ∧ ∃ t, step s = .next t :=
  ⟨{ bursting .zero with lastRStatus := 0x03 }, rfl, fun _ => by decide, _, rfl⟩
/-- A symbol whose first GO_IDLE is held. -/
def holding : State := { inSymbol with issued := true }

theorem holding_inv : Inv holding := by
  refine ⟨?_, ?_, ?_, ?_, ?_⟩
  · unfold SequenceInv; exact ⟨rfl, rfl⟩
  · unfold BurstInv; decide
  · exact ⟨rfl, by decide, 0, by decide, by decide⟩
  · unfold ProgressInv; decide
  · unfold SymbolInv; decide

theorem witness_HistoryGrowsByFourCommands :
    Inv holding ∧ holding.openEvent = [.strobe 0x36 none] ∧ (∃ t, step holding = .next t) ∧
      ∃ t, step { holding with inputs := [.reset] } = .next t :=
  ⟨holding_inv, by decide, ⟨_, rfl⟩, _, rfl⟩
theorem witness_HistoryGrowsByFourCommands_reset :
    ({ holding with inputs := [.reset] } : State).inFlight = some (.strobe .goIdle) := by decide
theorem witness_HostCannotDisturbOperation :
    ∃ s t : State, ∃ x, s.inputs = x :: [] ∧ x ≠ .block ∧ x ≠ .reset ∧ s.busy = true ∧ step s = .next t :=
  ⟨{ sending with inputs := [.write 4 0 0x14] }, _, _, rfl, by decide, by decide, rfl, rfl⟩
theorem witness_OnlyFecEncWritesResult :
    ∃ s t : State, step s = .next t ∧ t.result ≠ s.result :=
  ⟨{ idle with argByte := 0x01, inputs := [.write 4 0 0x01] }, _, rfl, by decide⟩
theorem witness_ErrorFlagsAreSticky :
    ∃ s t : State, step s = .next t ∧ (∀ rest, s.inputs ≠ .reset :: rest) ∧ s.ill = true ∧ t.ill = false ∧
      s.ovr = true ∧ t.ovr = false ∧ s.range = true ∧ t.range = false :=
  ⟨{ idle with ill := true, ovr := true, range := true, inputs := [.write 4 4 0xE] }, _, rfl, (by intro r h; cases h),
    rfl, rfl, rfl, rfl, rfl, rfl⟩
theorem witness_EndPollHasNoBound :
    ∃ s : State, s.inputs = [] ∧ s.phase = .endPoll ∧ s.statuses = [0x2F, 0x7F].map some ++ [] ∧
      ∀ b ∈ [0x2F, 0x7F], b ≠ s.params.endStatus :=
  ⟨{ nextOf (exec .rawEnd idle) with statuses := [some 0x2F, some 0x7F] }, rfl, rfl, rfl, by decide⟩

/-- The statuses of V-S1. -/
theorem witness_FlushIdleRuns :
    ∃ s : State, Inv s ∧ s.busy = false ∧ s.inputs = [] ∧ s.statuses = some 0x1F :: ([0x1F].map some ++ some 0x0F :: []) ∧
      (∀ b ∈ [0x1F#8], b &&& s.params.idleMask ≠ 0) ∧ 0x0F#8 &&& s.params.idleMask = 0 :=
  ⟨{ idle with statuses := [some 0x1F, some 0x1F, some 0x0F] }, inv_of_idle rfl rfl rfl rfl rfl rfl rfl, rfl, rfl, rfl,
    by decide, by decide⟩
/-- The statuses of V-S5. -/
theorem witness_RawEndRuns :
    ∃ s : State, Inv s ∧ s.busy = false ∧ s.inputs = [] ∧
      s.statuses = [0x2F, 0x7F].map some ++ some s.params.endStatus :: some 0x0F :: [] ∧
      ∀ b ∈ [0x2F, 0x7F], b ≠ s.params.endStatus :=
  ⟨{ idle with statuses := [some 0x2F, some 0x7F, some 0x0F, some 0x0F] }, inv_of_idle rfl rfl rfl rfl rfl rfl rfl, rfl, rfl,
    rfl, by decide⟩

/-- A buffer of `n` readable bytes, the transceiver side ready for all of them. -/
def toSend (n : Half) : State :=
  { idle with
    argAddr := 0x2000, argLen := n, mem := [(0x2000, 0xA0), (0x2001, 0xA1)],
    statuses := [some 0x1F, some 0x1F, some 0x0F, some 0x0F, some 0x0F], readies := List.replicate n.toNat true }

theorem admitted_ex {a : Nat} (h1 : 0x1000 ≤ a) (h2 : a < 0x10000) : admitted ex a = true := by
  have e : ex.hostAdmit = [(0x1000, 0xF000)] := rfl
  have hs : Config.hostSpace = 4294967296 := rfl
  simp only [admitted, e, hs, List.any_cons, List.any_nil, Bool.and_eq_true, Bool.or_false, decide_eq_true_eq]
  omega

theorem toSend_readable (n : Half) (hn : n.toNat ≤ 64) :
    bufferReadable (toSend n) (toSend n).argAddr.toNat (toSend n).argLen.toNat :=
  ⟨rfl, fun i hi => by
    have h : i < n.toNat := hi
    have e : (toSend n).argAddr.toNat = 0x2000 := by simp [toSend]
    rw [e]
    exact admitted_ex (by omega) (by omega)⟩

/-- V-S2, with 64 bytes: the longest that is not refilled. -/
theorem witness_RawTxShortRuns :
    Inv (toSend 64) ∧ (toSend 64).busy = false ∧ (toSend 64).inputs = [] ∧ (toSend 64).argLen.toNat ≤ 64 ∧
      (toSend 64).argAddr.toNat + (toSend 64).argLen.toNat ≤ 2 ^ 32 ∧
      bufferReadable (toSend 64) (toSend 64).argAddr.toNat (toSend 64).argLen.toNat ∧
      (toSend 64).statuses = some 0x1F :: ([0x1F].map some ++ some 0x0F :: some 0x0F :: some 0x0F :: []) ∧
      (toSend 64).readies = List.replicate (toSend 64).argLen.toNat true ++ [] ∧
      (∀ b ∈ [0x1F#8], b &&& (toSend 64).params.idleMask ≠ 0) ∧ 0x0F#8 &&& (toSend 64).params.idleMask = 0 :=
  ⟨inv_of_idle rfl rfl rfl rfl rfl rfl rfl, rfl, rfl, by decide, by decide, toSend_readable 64 (by decide), rfl, by decide, by decide, by decide⟩

/-- RAW_TX of two bytes comes to its end in eight steps. -/
theorem witness_StreamIsTheBuffer_rawTx :
    Inv (toSend 2) ∧ (toSend 2).busy = false ∧ (toSend 2).inputs = [] ∧ (toSend 2).stale = [] ∧
      (toSend 2).argAddr.toNat + (toSend 2).argLen.toNat ≤ 2 ^ 32 ∧
      ∃ t : State, Host.Core.run core 8 (nextOf (exec .rawTx (toSend 2))) = .next t ∧ t.busy = false :=
  ⟨inv_of_idle rfl rfl rfl rfl rfl rfl rfl, rfl, rfl, rfl, by decide, endsIdle_run (by decide)⟩
/-- RAW_CONT and RAW_ZERO of one byte, with a status that reports 15 free bytes. -/
theorem witness_StreamIsTheBuffer_refill :
    (∃ t : State, Host.Core.run core 4 (nextOf (exec .rawCont { toSend 1 with statuses := [some 0x2F] })) = .next t ∧
      t.busy = false) ∧
    ∃ t : State, Host.Core.run core 4 (nextOf (exec .rawZero { toSend 1 with statuses := [some 0x2F] })) = .next t ∧
      t.busy = false :=
  ⟨endsIdle_run (by decide), endsIdle_run (by decide)⟩
/-- FLUSH_IDLE with the statuses of V-S1, RAW_END with END_STATUS at once. -/
theorem witness_StreamIsTheBuffer_control :
    (∃ t : State, Host.Core.run core 3 (nextOf (exec .flushIdle (toSend 2))) = .next t ∧ t.busy = false) ∧
    ∃ t : State, Host.Core.run core 2 (nextOf (exec .rawEnd { toSend 2 with statuses := [some 0x0F, some 0x0F] })) = .next t ∧
      t.busy = false :=
  ⟨endsIdle_run (by decide), endsIdle_run (by decide)⟩

theorem witness_StreamOperationsRun :
    ∃ s : State, Inv s ∧ s.busy = false ∧ s.inputs = [] ∧ 0 < (0x0F#8 &&& s.params.freeMask).toNat ∧
      answersWith s (List.replicate (s.argLen.toNat + 5) (some 0x0F)) s.argLen.toNat ∧
      (0x0F#8 &&& s.params.idleMask = 0 ∧ (64 < s.argLen.toNat → 0x0F#8 &&& s.params.settleMask = 0)) ∧ s.argAddr.toNat + s.argLen.toNat ≤ 2 ^ 32 ∧
      bufferReadable s s.argAddr.toNat s.argLen.toNat :=
  ⟨{ toSend 2 with statuses := List.replicate 7 (some 0x0F) }, inv_of_idle rfl rfl rfl rfl rfl rfl rfl, rfl, rfl, by decide,
    ⟨⟨[], rfl⟩, ⟨[], rfl⟩⟩, by decide, by decide, toSend_readable 2 (by decide)⟩

theorem witness_SymbolStreamInOrder_start : Inv loaded ∧ loaded.busy = false ∧ prnLoaded loaded = true ∧
    ∃ t, exec .txByte loaded = .next t :=
  ⟨inv_of_idle rfl rfl rfl rfl rfl rfl rfl, rfl, by decide, exec_next _ _⟩
theorem witness_SymbolStreamInOrder_step :
    SymbolStreamInv 0 inSymbol ∧ inSymbol.inputs = [] ∧ ∃ t, step inSymbol = .next t :=
  ⟨⟨inSymbol_inv, rfl, rfl, by decide, Nat.le_refl _, rfl⟩, rfl, _, rfl⟩

/-- TX_BUF about to fetch its first payload byte. -/
def fetching : State :=
  { loaded with op := some .txBuf, busy := true, phase := .symFetch, lAddr := 0x2000, lLen := 2 }

theorem witness_SymbolStreamInOrder_fetch :
    Inv fetching ∧ fetching.inputs = [] ∧ fetching.phase = .symFetch ∧ prnLoaded fetching = true ∧
      ∃ t, step fetching = .next t := by
  refine ⟨⟨?_, ?_, ?_, ?_, ?_⟩, rfl, rfl, by decide, _, rfl⟩
  · unfold SequenceInv; exact ⟨rfl, rfl⟩
  · unfold BurstInv; decide
  · exact (rfl : fetching.rem = 0)
  · unfold ProgressInv; decide
  · unfold SymbolInv; decide

/-- Status 0x0F reports 15 free bytes, so a chip takes five queries; the end poll is answered with END_STATUS, the last GO_IDLE
with another status. -/
theorem witness_TxByteRuns :
    ∃ s : State, Inv s ∧ s.busy = false ∧ s.inputs = [] ∧ prnLoaded s = true ∧
      0x0F#8 &&& s.params.idleMask = 0 ∧ 0 < (0x0F#8 &&& s.params.freeMask).toNat ∧
      answersWith s (symbolAnswers (0x0F#8 &&& s.params.freeMask).toNat 0x0F s.params.endStatus 0x3F) 1920 :=
  ⟨{ loaded with statuses := symbolAnswers 15 0x0F 0x0F 0x3F, readies := List.replicate 1920 true },
    inv_of_idle rfl rfl rfl rfl rfl rfl rfl, rfl, rfl, by decide, by decide, by decide,
    ⟨[], (List.append_nil _).symm⟩, ⟨[], (List.append_nil _).symm⟩⟩

/-- Program P3's operands. -/
theorem witness_TxBufRuns :
    ∃ s : State, Inv s ∧ s.busy = false ∧ s.inputs = [] ∧ prnLoaded s = true ∧
      0x0F#8 &&& s.params.idleMask = 0 ∧ 0 < (0x0F#8 &&& s.params.freeMask).toNat ∧
      s.argAddr.toNat + s.argLen.toNat ≤ 2 ^ 32 ∧ bufferReadable s s.argAddr.toNat s.argLen.toNat ∧
      answersWith s
        (List.replicate s.argLen.toNat
          (symbolAnswers (0x0F#8 &&& s.params.freeMask).toNat 0x0F s.params.endStatus 0x3F)).flatten
        (1920 * s.argLen.toNat) :=
  ⟨{ loaded with
      argAddr := 0x6000, argLen := 2, statuses := (List.replicate 2 (symbolAnswers 15 0x0F 0x0F 0x3F)).flatten,
      readies := List.replicate (1920 * 2) true },
    inv_of_idle rfl rfl rfl rfl rfl rfl rfl, rfl, rfl, by decide, by decide, by decide, by decide,
    ⟨rfl, fun i hi => admitted_ex (Nat.le_trans (by decide) (Nat.le_add_right _ _)) (by
      have h : i < 2 := hi
      have e : (0x6000#32).toNat = 0x6000 := by decide
      show (0x6000#32).toNat + i < 0x10000
      rw [e]
      omega)⟩,
    ⟨[], (List.append_nil _).symm⟩, ⟨[], (List.append_nil _).symm⟩⟩

end Sys2Proof.Tests
end

section
/-! PROOFS. The family of 00_scope.md: the frame of a symbol's stream (R8, R165), the parameter check at launch (R10), the
invariants at reset (R41). -/

namespace Sys2Proof.Machine

/-- A pattern memory has 64 bytes, written or not (R33). -/
@[simp] theorem patternBytes_length (s : State) (sel : Bool) : (patternBytes s sel).length = 64 := by
  simp [patternBytes]

/-- The patterns of a list of chips have 64 bytes for each chip (R8, R165). -/
theorem flatMap_patternBytes_length (s : State) (chips : List Bool) :
    (chips.flatMap (patternBytes s)).length = 64 * chips.length := by
  induction chips with
  | nil => rfl
  | cons c cs ih => rw [List.flatMap_cons, List.length_append, patternBytes_length, ih, List.length_cons]; omega

/-- Settles O24: seven chips stand before the 16 data chips and seven after them, and each chip is 64 bytes. -/
theorem symbolStreamFrame : Obligations.SymbolStreamFrame := by
  intro s d
  have len := flatMap_patternBytes_length s
  refine ⟨len _, ?_, ?_⟩
  · simp only [symbolStream, symbolChips, List.flatMap_append, List.append_assoc]
    exact List.take_left' (len preamble)
  · rw [symbolStream, symbolChips, List.flatMap_append]
    exact List.drop_left' (len _)

/-- What launch checks is R10's bound. -/
theorem admissible_iff (p : RawParams) : p.admissible = true ↔ p.freeMask.toNat ≤ 64 := decide_eq_true_iff

/-- Settles O32: launch checks exactly R10's bound, and the parameters a state carries have passed that check. -/
theorem badParametersRefused : Obligations.BadParametersRefused := by
  refine ⟨fun p h => ?_, fun p h => ?_, fun s => Params.freeMask_le s.params⟩
  · exact dif_neg (mt (admissible_iff p).mp (Nat.not_le.mpr h))
  · exact ⟨_, dif_pos ((admissible_iff p).mpr h), rfl⟩

/-- Settles O43: admissible parameters pass launch's check, and the reset state is idle with nothing left to transfer. -/
theorem resetMeetsInvariants : Obligations.ResetMeetsInvariants := by
  refine ⟨fun p => ⟨dif_pos p.ok, inv_of_idle rfl rfl rfl rfl rfl rfl rfl, ?_, rfl⟩, rfl, Config.hardware.distinct⟩
  intro h
  cases h

end Sys2Proof.Machine
end

section
/-! PROOFS. What one step of the block can be, said once (41_stream.md R119): every phase is idle, a strobe, a burst, a wait or
the fetch of a payload byte, and each kind has its few moves. -/

namespace Sys2Proof.Machine

/-- What follows the answer `b` to the strobe of a phase (R119); the phases without a strobe are given nothing to do. -/
def afterStrobe : Phase → Byte → State → State
  | .flushCmd, _, t => { t with phase := .flushPoll }
  | .flushPoll, b, t => afterFlushPoll b t
  | .fifoFlush, b, t => afterFifoFlush b t
  | .start, b, t => afterStart b t
  | .settlePoll, b, t => afterSettlePoll b t
  | .refillQuery, b, t => afterRefillQuery b t
  | .endPoll, b, t => afterEndPoll b t
  | .endIdle, b, t => afterEndIdle b t
  | .idle, _, t | .load, _, t | .refillWait, _, t | .refillWrite, _, t | .symWait, _, t | .symFetch, _, t => t

/-- What follows the burst of a phase (R119): START_TX after the initial burst, the loop's test after a refill. -/
def afterBurst (p : Phase) (t : State) : State := if p = .load then afterLoad t else refillTest t

/-- The phase that follows the wait of a phase (R119). -/
def afterWait (p : Phase) (t : State) : State := { t with phase := if p = .refillWait then .refillQuery else .symFetch }

theorem blockStep_strobe {s : State} {c : RadioCommand} (h : s.phase.command = some c) :
    blockStep s = strobeStep c (afterStrobe s.phase) s := by
  cases hp : s.phase <;> rw [hp] at h <;> cases h <;> simp only [blockStep, hp] <;> rfl

theorem blockStep_burst {s : State} (h : s.phase.bursting = true) :
    blockStep s = burstStep (afterBurst s.phase) s := by
  cases hp : s.phase <;> rw [hp] at h <;> cases h <;> simp only [blockStep, hp] <;> rfl

theorem blockStep_wait {s : State} {kind : WaitKind} (h : s.phase.waitKind = some kind) :
    blockStep s = waitStep kind (afterWait s.phase) s := by
  cases hp : s.phase <;> rw [hp] at h <;> cases h <;> simp only [blockStep, hp] <;> rfl

theorem blockStep_idle {s : State} (h : s.phase = .idle) : blockStep s = .next s := by simp only [blockStep, h]

theorem blockStep_fetch {s : State} (h : s.phase = .symFetch) : blockStep s = symFetchStep s := by simp only [blockStep, h]

/-- The kinds of phase: one of these holds (R36). -/
theorem Phase.kinds (p : Phase) :
    p = .idle ∨ p = .symFetch ∨ (∃ c, p.command = some c) ∨ p.bursting = true ∨ ∃ kind, p.waitKind = some kind := by
  cases p <;> simp [Phase.command, Phase.bursting, Phase.waitKind]

/-- The moves of the block, one step each. `script` and `n` are what is left of the transceiver side's script and the draw
counter. -/
inductive BlockMove (s : State) : State → Prop
  /-- The idle block waits (R212). -/
  | idle (hp : s.phase = .idle) : BlockMove s s
  /-- A strobe is issued, or still in flight, and the block holds (R92). -/
  | hold {c script n} (hp : s.phase.command = some c) :
      BlockMove s { s with issued := true, statuses := script, draws := n }
  /-- A strobe is answered (R92). -/
  | answer {c b script n} (hp : s.phase.command = some c) :
      BlockMove s (afterStrobe s.phase b (answerStrobe c b { s with issued := true, statuses := script, draws := n }))
  /-- A burst holds before its next byte (R94). -/
  | burstHold {script n} (hp : s.phase.bursting = true) :
      BlockMove s { s with issued := true, readies := script, draws := n }
  /-- A burst transfers its next byte (R94). -/
  | byte {left script n b s2} (hp : s.phase.bursting = true) (hl : s.burstLeft = left + 1)
      (ht : takeByte { s with issued := true, readies := script, draws := n } = .ok (b, s2)) :
      BlockMove s { s2 with burstLeft := left, burstSent := s2.burstSent ++ [b] }
  /-- A burst is over (R94). -/
  | close (hp : s.phase.bursting = true) (hl : s.burstLeft = 0) : BlockMove s (afterBurst s.phase (closeBurst s))
  /-- One unit of a wait passes (R103). -/
  | tick {kind n} (hp : s.phase.waitKind = some kind) : BlockMove s { s with waitLeft := n }
  /-- A wait is over (R103). -/
  | waitEnd {kind} (hp : s.phase.waitKind = some kind) : BlockMove s (afterWait s.phase (record (.wait kind) s))
  /-- The next payload byte of TX_BUF is fetched and its symbol begins (R167). -/
  | fetch {b n} (hp : s.phase = .symFetch) : BlockMove s (txSymbol b { s with draws := n })

/-- Every step of the block is one of its moves. -/
theorem blockStep_move {s t : State} (h : blockStep s = .next t) : BlockMove s t := by
  obtain hp | hp | ⟨c, hp⟩ | hp | ⟨kind, hp⟩ := s.phase.kinds
  · rw [blockStep_idle hp] at h
    cases h
    exact .idle hp
  · rw [blockStep_fetch hp, symFetchStep] at h
    split at h
    · rename_i hread
      obtain ⟨-, ⟨n, rfl⟩, -⟩ := memRead_ok hread
      cases h
      exact .fetch hp
    · cases h
  · rw [blockStep_strobe hp] at h
    obtain ⟨script, n, rfl | ⟨b, rfl⟩⟩ := strobeStep_next h
    · exact .hold hp
    · exact .answer hp
  · rw [blockStep_burst hp] at h
    obtain ⟨hl, rfl⟩ | ⟨left, hl, script, n, rfl | ⟨b, s2, ht, rfl⟩⟩ := burstStep_next h
    · exact .close hp hl
    · exact .burstHold hp
    · exact .byte hp hl ht
  · rw [blockStep_wait hp] at h
    obtain ⟨n, -, rfl⟩ | ⟨-, rfl⟩ := waitStep_next h
    · exact .tick hp
    · exact .waitEnd hp

end Sys2Proof.Machine
end

section
/-! PROOFS. Every move of the block keeps the controller's invariant (10_state.md R38, 41_stream.md R119). -/

namespace Sys2Proof.Machine

/-! What the invariant says of the state at hand. -/

/-- Outside phase IDLE an operation is in one of its phases. -/
theorem SequenceInv.running {s : State} (h : SequenceInv s) (hp : s.phase ≠ .idle) :
    ∃ i, s.op = some i ∧ s.busy = true ∧ phaseOf i s.phase = true := by
  unfold SequenceInv at h
  split at h
  · exact absurd h.2 hp
  · exact ⟨_, by assumption, h⟩

theorem sequenceInv_of_running {s : State} {i : Instr} (ho : s.op = some i) (hb : s.busy = true)
    (hp : phaseOf i s.phase = true) : SequenceInv s := by
  simp only [SequenceInv, ho]
  exact ⟨hb, hp⟩

/-- Outside a burst phase no burst is in flight. -/
theorem BurstInv.quiet {s : State} (h : BurstInv s) (hp : s.phase.bursting = false) : s.burstLeft = 0 ∧ s.burstSent = [] := by
  simp only [BurstInv, hp] at h
  exact ⟨h.1, h.2.1⟩

theorem burstInv_of_quiet {s : State} (hp : s.phase.bursting = false) (hl : s.burstLeft = 0) (hs : s.burstSent = [])
    (hi : s.issued = false) : BurstInv s := by
  simp [BurstInv, hp, hl, hs, hi]

/-- In a burst phase the burst fits, in one burst and in the transfer. -/
theorem BurstInv.inBurst {s : State} (h : BurstInv s) (hp : s.phase.bursting = true) :
    s.burstSent.length + s.burstLeft ≤ 64 ∧ s.burstSent.length + s.burstLeft ≤ s.rem.toNat ∧
      (s.issued = false → s.burstSent = []) := by
  simp only [BurstInv, hp, if_true] at h
  exact h

theorem burstInv_of_inBurst {s : State} (hp : s.phase.bursting = true) (h64 : s.burstSent.length + s.burstLeft ≤ 64)
    (hrem : s.burstSent.length + s.burstLeft ≤ s.rem.toNat) (hi : s.issued = false → s.burstSent = []) : BurstInv s := by
  simp only [BurstInv, hp, if_true]
  exact ⟨h64, hrem, hi⟩

theorem inSymbol_iff (s : State) : s.inSymbol = true ↔ s.op = some .txByte ∨ s.op = some .txBuf := by
  cases ho : s.op with
  | none => simp [State.inSymbol, ho]
  | some i => cases i <;> simp [State.inSymbol, ho, sendsSymbols]

/-- While a symbol is sent the source is a byte of its chip's pattern, and what is left is what follows it there. -/
theorem SourceInv.symbol {s : State} (h : SourceInv s) (hs : s.inSymbol = true) (hb : s.phase.between = false) :
    s.cw = chipWord s.params.fecMasks s.sb ∧ s.rem.toNat ≤ 64 ∧
      ∃ i, s.src = .prn (chipBit s s.chip.val) i ∧ i + s.rem.toNat = 64 + s.burstSent.length := by
  rcases (inSymbol_iff s).mp hs with ho | ho <;> simp only [SourceInv, ho, hb] at h <;> exact h

theorem sourceInv_of_symbol {s : State} {i : Nat} (hs : s.inSymbol = true) (hb : s.phase.between = false)
    (hcw : s.cw = chipWord s.params.fecMasks s.sb) (hrem : s.rem.toNat ≤ 64)
    (hsrc : s.src = .prn (chipBit s s.chip.val) i) (hpos : i + s.rem.toNat = 64 + s.burstSent.length) : SourceInv s := by
  rcases (inSymbol_iff s).mp hs with ho | ho <;> simp only [SourceInv, ho, hb] <;> exact ⟨hcw, hrem, i, hsrc, hpos⟩

/-- The source looks at the phase only as far as it is between symbols or not. -/
theorem SourceInv.enter {s : State} {p : Phase} (h : SourceInv s) (hb : p.between = s.phase.between) :
    SourceInv { s with phase := p } := by
  unfold SourceInv at *
  simpa only [hb, chipBit] using h

theorem inSymbol_of_op {s : State} {i : Instr} (ho : s.op = some i) : s.inSymbol = sendsSymbols i := by
  simp [State.inSymbol, ho]

/-- How far the transfer is, phase by phase: what `ProgressInv` says in a state of phase `p`. -/
def ProgressAt (s : State) : Phase → Prop
  | .flushCmd | .flushPoll | .fifoFlush =>
    s.op ≠ some .flushIdle → s.rem.toNat = streamLen s ∧ (s.inSymbol = true → s.chip = 0)
  | .load =>
    (s.op ≠ some .flushIdle → s.rem.toNat = streamLen s ∧ (s.inSymbol = true → s.chip = 0)) ∧
      s.burstSent.length + s.burstLeft = min (streamLen s) 64
  | .start => s.rem.toNat = streamLen s - 64 ∧ (s.inSymbol = true → s.chip = 0)
  | .settlePoll => s.rem.toNat = streamLen s - 64 ∧ 64 < streamLen s
  | .refillWait | .refillQuery | .refillWrite => s.rem ≠ 0
  | .endPoll | .endIdle => s.rem = 0 ∧ (s.inSymbol = true → s.chip.val = 29)
  | .idle | .symWait | .symFetch => True

theorem progressInv_iff (s : State) : ProgressInv s ↔ ProgressAt s s.phase := by
  cases hp : s.phase <;>
    simp [ProgressInv, ProgressAt, Config.fifoCap, hp, Phase.starting, Phase.refilling, Phase.ending]

theorem Inv.progressAt {s : State} {p : Phase} (h : Inv s) (hp : s.phase = p) : ProgressAt s p := by
  obtain ⟨-, -, -, hprog, -⟩ := h
  exact hp ▸ (progressInv_iff s).mp hprog

/-! Changes of phase. -/

/-- The invariant goes with the operation from a phase `q` of no burst to another, `p`. -/
theorem Inv.enter {s : State} {q p : Phase} (h : Inv s) (hq : s.phase = q) (hi : s.issued = false)
    (hprog : ProgressAt s p)
    (hseq : ∀ i, s.op = some i → phaseOf i q = true → phaseOf i p = true := by intro i _; cases i <;> decide)
    (hrun : q ≠ .idle := by decide) (hqb : q.bursting = false := by decide) (hpb : p.bursting = false := by decide)
    (hb : p.between = q.between := by decide) : Inv { s with phase := p } := by
  subst hq
  obtain ⟨hsq, hburst, hsrc, -, hsym⟩ := h
  obtain ⟨i, ho, hbusy, hphase⟩ := hsq.running hrun
  obtain ⟨hl, hsent⟩ := hburst.quiet hqb
  exact ⟨sequenceInv_of_running ho hbusy (hseq i ho hphase), burstInv_of_quiet hpb hl hsent hi, hsrc.enter hb,
    (progressInv_iff _).mpr hprog, hsym⟩

/-- A burst of at most 64 bytes, and at most what is left of the transfer, may begin. -/
theorem Inv.enterBurst {s : State} {q p : Phase} {k : Nat} (h : Inv s) (hq : s.phase = q) (h64 : k ≤ 64)
    (hrem : k ≤ s.rem.toNat) (hprog : ProgressAt (enterBurst p k s) p)
    (hseq : ∀ i, phaseOf i q = true → phaseOf i p = true := by intro i; cases i <;> decide)
    (hrun : q ≠ .idle := by decide) (hqb : q.bursting = false := by decide) (hpb : p.bursting = true := by decide)
    (hb : p.between = q.between := by decide) : Inv (enterBurst p k s) := by
  subst hq
  obtain ⟨hsq, hburst, hsrc, -, hsym⟩ := h
  obtain ⟨i, ho, hbusy, hphase⟩ := hsq.running hrun
  have hsent : s.burstSent = [] := (hburst.quiet hqb).2
  have hsrc' : SourceInv (Machine.enterBurst p k s) := by
    have e : Machine.enterBurst p k s = { s with phase := p, burstLeft := k, burstSent := s.burstSent } := by
      rw [hsent]
      rfl
    rw [e]
    exact hsrc.enter hb
  exact ⟨sequenceInv_of_running ho hbusy (hseq i hphase), burstInv_of_inBurst hpb (by simpa using h64)
    (by simpa using hrem) fun _ => rfl, hsrc', (progressInv_iff _).mpr hprog, hsym⟩

/-- An operation with nothing left of its transfer may complete. -/
theorem Inv.complete {s : State} (h : Inv s) (hp : s.phase.bursting = false) (hi : s.issued = false) (hrem : s.rem = 0) :
    Inv (complete s) := by
  obtain ⟨-, hburst, -⟩ := h
  obtain ⟨hl, hsent⟩ := hburst.quiet hp
  exact inv_of_idle rfl rfl rfl hrem hl hsent hi

@[simp] theorem txSymbol_phase (b : Byte) (s : State) : (txSymbol b s).phase = .flushCmd := rfl
@[simp] theorem txSymbol_rem (b : Byte) (s : State) : (txSymbol b s).rem = 64 := rfl
@[simp] theorem txSymbol_chip (b : Byte) (s : State) : (txSymbol b s).chip = 0 := rfl
@[simp] theorem txSymbol_burstSent (b : Byte) (s : State) : (txSymbol b s).burstSent = s.burstSent := rfl

/-- A symbol begins: its first chip is all to be sent. -/
theorem inv_txSymbol {s : State} (b : Byte) (hs : s.inSymbol = true) (hbusy : s.busy = true) (hl : s.burstLeft = 0)
    (hsent : s.burstSent = []) (hi : s.issued = false) (hsym : SymbolInv s) : Inv (txSymbol b s) := by
  refine ⟨?_, burstInv_of_quiet rfl hl hsent hi, ?_, ?_, hsym⟩
  · obtain ho | ho := (inSymbol_iff s).mp hs <;> exact sequenceInv_of_running ho hbusy rfl
  · exact sourceInv_of_symbol hs rfl rfl (by simp) rfl (by simp [hsent])
  · have hlen : streamLen (txSymbol b s) = 64 := if_pos hs
    exact (progressInv_iff _).mpr fun _ => ⟨hlen.symm, fun _ => rfl⟩

theorem phaseOf_sendsSymbols {i : Instr} :
    sendsSymbols i = true → phaseOf i .refillWait = true ∧ phaseOf i .endPoll = true := by
  cases i <;> decide

/-- After a refill loop a symbol goes on to its next chip or to the end poll, and any other operation completes (R119). -/
theorem inv_refillDone {s : State} {i : Instr} (ho : s.op = some i) (hbusy : s.busy = true)
    (hbet : s.phase.between = false) (hrem : s.rem = 0) (hl : s.burstLeft = 0) (hsent : s.burstSent = [])
    (hi : s.issued = false) (hsrc : SourceInv s) (hsym : SymbolInv s) : Inv (refillDone s) := by
  unfold refillDone
  split
  · rename_i hs
    have hcw := (hsrc.symbol hs hbet).1
    obtain ⟨hrefill, hend⟩ := phaseOf_sendsSymbols ((inSymbol_of_op ho).symm.trans hs)
    unfold nextChip
    split
    · rename_i hc
      refine ⟨sequenceInv_of_running ho hbusy hrefill, burstInv_of_quiet rfl hl hsent hi, ?_, ?_, hsym⟩
      · exact sourceInv_of_symbol hs rfl hcw (by simp) rfl (by simp [hsent])
      · exact (progressInv_iff (Machine.enterRefillWait _)).mpr (show (64 : Half) ≠ 0 by decide)
    · rename_i hc
      refine ⟨sequenceInv_of_running ho hbusy hend, burstInv_of_quiet rfl hl hsent hi, ?_, ?_, hsym⟩
      · exact hsrc.enter hbet.symm
      · exact (progressInv_iff { s with phase := .endPoll }).mpr ⟨hrem, fun _ => by simp only; omega⟩
  · exact inv_of_idle rfl rfl rfl hrem hl hsent hi

/-! After the strobes. -/

theorem phaseOf_fifoFlush {i : Instr} : i ≠ .flushIdle → phaseOf i .flushPoll = true → phaseOf i .fifoFlush = true := by
  cases i <;> decide

theorem phaseOf_settlePoll {i : Instr} :
    sendsSymbols i = false → phaseOf i .start = true → phaseOf i .settlePoll = true := by
  cases i <;> decide

theorem Inv.afterFlushPoll {s : State} (b : Byte) (h : Inv s) (hp : s.phase = .flushPoll) (hi : s.issued = false) :
    Inv (afterFlushPoll b s) := by
  unfold Machine.afterFlushPoll
  split
  · split
    · rename_i ho
      have ⟨_, _, hsrc, _⟩ := h
      simp only [SourceInv, ho] at hsrc
      exact h.complete (by rw [hp]; rfl) hi hsrc
    · rename_i ho
      exact h.enter hp hi (h.progressAt (p := .flushPoll) hp) fun i hi =>
        phaseOf_fifoFlush fun e => ho (e ▸ hi)
  · exact h

theorem Inv.afterFifoFlush {s : State} (b : Byte) (h : Inv s) (hp : s.phase = .fifoFlush) :
    Inv (afterFifoFlush b s) := by
  have ⟨hsq, _⟩ := h
  obtain ⟨i, ho, -, hphase⟩ := hsq.running (by rw [hp]; decide)
  have hne : s.op ≠ some .flushIdle := by
    intro e
    rw [hp] at hphase
    obtain rfl : i = .flushIdle := Option.some.inj (ho.symm.trans e)
    cases hphase
  have hprog := h.progressAt hp
  obtain ⟨hrem, -⟩ := hprog hne
  exact h.enterBurst hp (Nat.min_le_right _ _) (by rw [hrem]; exact Nat.min_le_left _ _)
    ⟨hprog, by simp [Config.fifoCap]; rfl⟩

/-- In phase START a transfer of at most 64 bytes is all out (R113). -/
theorem Inv.afterStart {s : State} (b : Byte) (h : Inv s) (hp : s.phase = .start) (hi : s.issued = false) :
    Inv (afterStart b s) := by
  have ⟨hsq, hburst, hsrc, _, hsym⟩ := h
  obtain ⟨i, ho, hbusy, -⟩ := hsq.running (by rw [hp]; decide)
  obtain ⟨hl, hsent⟩ := hburst.quiet (by rw [hp]; rfl)
  obtain ⟨hrem, -⟩ := h.progressAt hp
  unfold Machine.afterStart
  split
  · rename_i hlen
    have hzero : s.rem = 0 := BitVec.eq_of_toNat_eq (by simpa [hrem, Config.fifoCap, Nat.sub_eq_zero_iff_le] using hlen)
    exact inv_refillDone ho hbusy (by rw [hp]; rfl) hzero hl hsent hi hsrc hsym
  · rename_i hlen
    have hns : s.inSymbol = false := by
      refine Bool.eq_false_iff.mpr fun hs => hlen ?_
      rw [streamLen, if_pos hs]
      exact Nat.le_refl 64
    exact h.enter hp hi ⟨hrem, Nat.not_le.mp hlen⟩ fun i ho =>
      phaseOf_settlePoll ((inSymbol_of_op ho).symm.trans hns)

/-- In phase SETTLE_POLL something is left to send (R113). -/
theorem Inv.rem_ne_zero_of_settlePoll {s : State} (h : Inv s) (hp : s.phase = .settlePoll) : s.rem ≠ 0 := by
  obtain ⟨hrem, hlen⟩ := h.progressAt hp
  intro hzero
  have hnone : s.rem.toNat = 0 := by rw [hzero]; rfl
  omega

/-- The settle poll leads into the refill loop, of which nothing has been sent (R113). -/
theorem Inv.refillLoop_after_settle {s : State} (h : Inv s) (hp : s.phase = .settlePoll) :
    refillLoop s.src (BitVec.ofNat 16 (streamLen s - Config.fifoCap)) s = enterRefillWait s := by
  obtain ⟨hrem, -⟩ := h.progressAt hp
  have e : BitVec.ofNat 16 (streamLen s - Config.fifoCap) = s.rem :=
    BitVec.eq_of_toNat_eq (by rw [BitVec.toNat_ofNat, Config.fifoCap, ← hrem, Nat.mod_eq_of_lt s.rem.isLt])
  rw [e]
  exact if_neg (h.rem_ne_zero_of_settlePoll hp)

theorem Inv.afterSettlePoll {s : State} (b : Byte) (h : Inv s) (hp : s.phase = .settlePoll) (hi : s.issued = false) :
    Inv (afterSettlePoll b s) := by
  unfold Machine.afterSettlePoll
  split
  · rw [h.refillLoop_after_settle hp]
    exact h.enter (p := .refillWait) hp hi (h.rem_ne_zero_of_settlePoll hp)
  · exact h

/-- A status never reports more free space than one burst may have (R100). -/
theorem freeSpace_le (p : Params) (b : Byte) : freeSpace p b ≤ 64 := by
  have hand : freeSpace p b ≤ p.freeMask.toNat := by
    rw [freeSpace, BitVec.toNat_and]
    exact Nat.and_le_right
  exact hand.trans (Params.freeMask_le p)

theorem Inv.afterRefillQuery {s : State} (b : Byte) (h : Inv s) (hp : s.phase = .refillQuery) :
    Inv (afterRefillQuery b s) :=
  h.enterBurst hp ((Nat.min_le_left _ _).trans (freeSpace_le _ b)) (Nat.min_le_right _ _) (h.progressAt hp)

theorem Inv.afterEndPoll {s : State} (b : Byte) (h : Inv s) (hp : s.phase = .endPoll) (hi : s.issued = false) :
    Inv (afterEndPoll b s) := by
  unfold Machine.afterEndPoll
  split
  · exact h.enter hp hi (h.progressAt (p := .endPoll) hp)
  · exact h

theorem Inv.afterEndIdle {s : State} (b : Byte) (h : Inv s) (hp : s.phase = .endIdle) (hi : s.issued = false) :
    Inv (afterEndIdle b s) := by
  obtain ⟨hrem, -⟩ := h.progressAt hp
  have hquiet : s.phase.bursting = false := by rw [hp]; rfl
  unfold Machine.afterEndIdle
  split
  · rename_i hnext
    obtain ⟨ho, hlt⟩ := hnext
    obtain ⟨hsq, hburst, -, -, hsym⟩ := h
    obtain ⟨i, -, hbusy, -⟩ := hsq.running (by rw [hp]; decide)
    obtain ⟨hl, hsent⟩ := hburst.quiet hquiet
    refine ⟨sequenceInv_of_running ho hbusy rfl, burstInv_of_quiet rfl hl hsent hi, ?_, (progressInv_iff _).mpr trivial, ?_⟩
    · simpa [SourceInv, ho, Phase.between] using hrem
    · obtain ⟨-, hrange⟩ := hsym ho
      refine fun _ => ⟨?_, hrange⟩
      have hnext : (s.symidx + 1).toNat = s.symidx.toNat + 1 := BitVec.toNat_add_of_lt (hlt.trans s.lLen.isLt)
      simpa only [enterSymWait_symidx, enterSymWait_lLen, hnext] using hlt
  · exact h.complete hquiet hi hrem

/-- After an answered strobe (R119). -/
theorem Inv.afterStrobe {s : State} (b : Byte) (h : Inv s) (hi : s.issued = false) : Inv (afterStrobe s.phase b s) := by
  cases hp : s.phase with
  | flushCmd => exact h.enter hp hi (h.progressAt (p := .flushCmd) hp)
  | flushPoll => exact h.afterFlushPoll b hp hi
  | fifoFlush => exact h.afterFifoFlush b hp
  | start => exact h.afterStart b hp hi
  | settlePoll => exact h.afterSettlePoll b hp hi
  | refillQuery => exact h.afterRefillQuery b hp
  | endPoll => exact h.afterEndPoll b hp hi
  | endIdle => exact h.afterEndIdle b hp hi
  | idle | load | refillWait | refillWrite | symWait | symFetch => exact h

/-! Bursts (R94, R112, R113). -/

/-- The source `d` bytes further on (R37). -/
def Src.advance (d : Nat) : Src → Src
  | .host p => .host (p + d)
  | .prn sel i => .prn sel (i + d)
  | .zero => .zero

theorem Src.advance_zero (x : Src) : x.advance 0 = x := by cases x <;> rfl

/-- Taking a byte advances the source by one and changes at most the draw counter besides (R37). -/
theorem takeByte_advance {s s1 : State} {b : Byte} (h : takeByte s = .ok (b, s1)) :
    ∃ n, s1 = { s with draws := n, src := s.src.advance 1 } := by
  obtain ⟨n, src, rfl⟩ := takeByte_ok h
  have e := takeByte_src h
  cases hs : s.src <;> rw [hs] at e <;> obtain rfl : src = _ := e <;> exact ⟨n, rfl⟩

theorem Phase.bursting_iff (p : Phase) : p.bursting = true ↔ p = .load ∨ p = .refillWrite := by
  cases p <;> decide

/-- The source and the count of what is left move together while bytes are transferred and when a burst is closed. -/
theorem SourceInv.move {s : State} {r : Half} {d : Nat} {bs : List Byte} (h : SourceInv s) (hsq : SequenceInv s)
    (hp : s.phase.bursting = true) (hr : r.toNat ≤ s.rem.toNat)
    (hd : d + r.toNat + s.burstSent.length = s.rem.toNat + bs.length) :
    SourceInv { s with rem := r, src := s.src.advance d, burstSent := bs } := by
  have hb : s.phase.between = false := by obtain e | e := s.phase.bursting_iff.mp hp <;> rw [e] <;> rfl
  obtain ⟨i, ho, -, hphase⟩ := hsq.running fun e => by rw [e] at hp; cases hp
  cases i with
  | rawTx | rawCont =>
    simp only [SourceInv, ho] at h ⊢
    obtain ⟨hrange, hlen, p, hsrc, hpos⟩ := h
    exact ⟨hrange, by omega, p + d, by rw [hsrc]; rfl, by omega⟩
  | rawZero =>
    simp only [SourceInv, ho] at h ⊢
    obtain ⟨hlen, hsrc⟩ := h
    exact ⟨by omega, by rw [hsrc]; rfl⟩
  | txByte | txBuf =>
    have hs := inSymbol_of_op ho
    obtain ⟨hcw, hlen, i, hsrc, hpos⟩ := h.symbol hs hb
    exact sourceInv_of_symbol (i := i + d) hs hb hcw (by simp only; omega) (by simp only [hsrc]; rfl) (by simp only; omega)
  | fecEnc | flushIdle | rawEnd =>
    obtain e | e := s.phase.bursting_iff.mp hp <;> rw [e] at hphase <;> cases hphase

/-- The next byte of a burst. -/
theorem Inv.byte {s s2 : State} {left : Nat} {script : List Bool} {n : Nat} {b : Byte} (h : Inv s)
    (hp : s.phase.bursting = true) (hl : s.burstLeft = left + 1)
    (ht : takeByte { s with issued := true, readies := script, draws := n } = .ok (b, s2)) :
    Inv { s2 with burstLeft := left, burstSent := s2.burstSent ++ [b] } := by
  obtain ⟨m, rfl⟩ := takeByte_advance ht
  obtain ⟨hsq, hburst, hsrc, hprog, hsym⟩ := h
  obtain ⟨h64, hrem, -⟩ := hburst.inBurst hp
  have hlen : (s.burstSent ++ [b]).length + left = s.burstSent.length + s.burstLeft := by
    rw [hl, List.length_append, List.length_singleton]
    omega
  refine ⟨hsq, burstInv_of_inBurst hp (hlen.trans_le h64) (hlen.trans_le hrem) nofun,
    hsrc.move hsq hp (Nat.le_refl _) (by simp; omega), (progressInv_iff _).mpr ?_, hsym⟩
  have hprog := (progressInv_iff s).mp hprog
  obtain e | e := s.phase.bursting_iff.mp hp <;> simp only [e] at hprog ⊢
  · exact ⟨hprog.1, hlen.trans hprog.2⟩
  · exact hprog

/-- A closed burst takes its bytes off what is left. -/
theorem closeBurst_rem_toNat {s : State} (h : s.burstSent.length ≤ s.rem.toNat) :
    (closeBurst s).rem.toNat = s.rem.toNat - s.burstSent.length := by
  have hlt := s.rem.isLt
  have hof : (BitVec.ofNat 16 s.burstSent.length).toNat = s.burstSent.length := by
    rw [BitVec.toNat_ofNat]
    exact Nat.mod_eq_of_lt (by omega)
  rw [closeBurst_rem, BitVec.toNat_sub_of_le (by rw [BitVec.le_def, hof]; exact h), hof]

theorem SourceInv.closeBurst {s : State} (h : SourceInv s) (hsq : SequenceInv s) (hp : s.phase.bursting = true)
    (hle : s.burstSent.length ≤ s.rem.toNat) : SourceInv (closeBurst s) := by
  have hrem := closeBurst_rem_toNat hle
  have hmove := h.move (d := 0) (bs := []) (r := (Machine.closeBurst s).rem) hsq hp (by omega)
    (by simp only [List.length_nil]; omega)
  rw [Src.advance_zero] at hmove
  exact hmove

/-- After the initial burst: what it did not hold is left (R113). -/
theorem Inv.afterLoad {s : State} (h : Inv s) (hp : s.phase = .load) (hl : s.burstLeft = 0) :
    Inv (afterLoad (closeBurst s)) := by
  have hb : s.phase.bursting = true := by rw [hp]; rfl
  have ⟨hsq, hburst, hsrc, _, hsym⟩ := h
  obtain ⟨i, ho, hbusy, hphase⟩ := hsq.running (by rw [hp]; decide)
  have hstart : phaseOf i .start = true ∧ i ≠ .flushIdle := by
    rw [hp] at hphase
    revert hphase
    cases i <;> decide
  obtain ⟨-, hle, -⟩ := hburst.inBurst hb
  obtain ⟨hbegin, hsize⟩ := h.progressAt hp
  obtain ⟨hrem, hchip⟩ := hbegin fun e => hstart.2 (Option.some.inj (ho.symm.trans e))
  have hclose := closeBurst_rem_toNat (s := s) (by omega)
  refine ⟨sequenceInv_of_running ho hbusy hstart.1, burstInv_of_quiet rfl hl rfl rfl,
    (hsrc.closeBurst hsq hb (by omega)).enter (by rw [closeBurst_phase, hp]; rfl), (progressInv_iff _).mpr ⟨?_, hchip⟩, hsym⟩
  have hlen : streamLen (Machine.afterLoad (closeBurst s)) = streamLen s := rfl
  show (closeBurst s).rem.toNat = _
  omega

/-- After a refill burst: the loop goes on or is left (R112). -/
theorem Inv.refillTest {s : State} (h : Inv s) (hp : s.phase = .refillWrite) (hl : s.burstLeft = 0) :
    Inv (refillTest (closeBurst s)) := by
  have hb : s.phase.bursting = true := by rw [hp]; rfl
  have hbet : s.phase.between = false := by rw [hp]; rfl
  obtain ⟨hsq, hburst, hsrc, -, hsym⟩ := h
  obtain ⟨i, ho, hbusy, hphase⟩ := hsq.running (by rw [hp]; decide)
  obtain ⟨-, hle, -⟩ := hburst.inBurst hb
  have hsrc' := hsrc.closeBurst hsq hb (by omega)
  unfold Machine.refillTest
  split
  · rename_i hzero
    exact inv_refillDone ho hbusy hbet hzero hl rfl rfl hsrc' hsym
  · rename_i hne
    have hseq : phaseOf i .refillWait = true := by
      rw [hp] at hphase
      revert hphase
      cases i <;> decide
    exact ⟨sequenceInv_of_running ho hbusy hseq, burstInv_of_quiet rfl hl rfl rfl, hsrc'.enter hbet.symm,
      (progressInv_iff _).mpr hne, hsym⟩

/-- After a burst (R119). -/
theorem Inv.afterBurst {s : State} (h : Inv s) (hp : s.phase.bursting = true) (hl : s.burstLeft = 0) :
    Inv (afterBurst s.phase (closeBurst s)) := by
  obtain e | e := s.phase.bursting_iff.mp hp <;> rw [e]
  · exact h.afterLoad e hl
  · exact h.refillTest e hl

/-! Strobes, waits, the fetch of a payload byte. -/

theorem Phase.of_waitKind {p : Phase} {kind : WaitKind} (h : p.waitKind = some kind) : p = .refillWait ∨ p = .symWait := by
  cases p <;> simp [waitKind] at h ⊢

theorem phaseOf_symFetch {i : Instr} : phaseOf i .symFetch = true → sendsSymbols i = true := by
  cases i <;> decide

/-- Where the block neither strobes nor bursts, nothing is in flight. -/
theorem BurstInv.unissued {s : State} (h : BurstInv s) (hp : s.phase.bursting = false) (hc : s.phase.command = none) :
    s.issued = false := by
  simp only [BurstInv, hp] at h
  exact h.2.2 hc

theorem Phase.command_of_bursting {p : Phase} : p.bursting = true → p.command = none := by
  cases p <;> decide

theorem Phase.not_bursting_of_command {p : Phase} {c : RadioCommand} (h : p.command = some c) : p.bursting = false :=
  Bool.eq_false_iff.mpr fun hb => by rw [command_of_bursting hb] at h; cases h

/-- A strobe may be in flight. -/
theorem Inv.hold {s : State} {c : RadioCommand} {script : List (Option Byte)} {n : Nat} (h : Inv s)
    (hp : s.phase.command = some c) : Inv { s with issued := true, statuses := script, draws := n } := by
  obtain ⟨hsq, hburst, hsrc, hprog, hsym⟩ := h
  have hb := Phase.not_bursting_of_command hp
  obtain ⟨hl, hsent⟩ := hburst.quiet hb
  refine ⟨hsq, ?_, hsrc, hprog, hsym⟩
  simp [BurstInv, hb, hl, hsent, hp]

/-- A strobe may be answered. -/
theorem Inv.answerStrobe {s : State} {c : RadioCommand} {b : Byte} {script : List (Option Byte)} {n : Nat} (h : Inv s)
    (hp : s.phase.command = some c) :
    Inv (answerStrobe c b { s with issued := true, statuses := script, draws := n }) := by
  obtain ⟨hsq, hburst, hsrc, hprog, hsym⟩ := h
  have hb := Phase.not_bursting_of_command hp
  obtain ⟨hl, hsent⟩ := hburst.quiet hb
  exact ⟨hsq, burstInv_of_quiet hb hl hsent rfl, hsrc, hprog, hsym⟩

/-- Every move of the block keeps the controller's invariant. -/
theorem BlockMove.inv {s t : State} (hm : BlockMove s t) (h : Inv s) : Inv t := by
  have ⟨hsq, hburst, hsrc, hprog, hsym⟩ := h
  cases hm with
  | idle => exact h
  | hold hp => exact h.hold hp
  | @answer c b script n hp => exact (h.answerStrobe hp (b := b) (script := script) (n := n)).afterStrobe b rfl
  | burstHold hp =>
    obtain ⟨h64, hrem, -⟩ := hburst.inBurst hp
    exact ⟨hsq, burstInv_of_inBurst hp h64 hrem nofun, hsrc, hprog, hsym⟩
  | byte hp hl ht => exact h.byte hp hl ht
  | close hp hl => exact h.afterBurst hp hl
  | tick => exact h
  | waitEnd hp =>
    obtain e | e := Phase.of_waitKind hp <;> rw [e]
    · have hi := hburst.unissued (by rw [e]; rfl) (by rw [e]; rfl)
      exact Inv.enter (s := record _ s) h e hi (h.progressAt (p := .refillWait) e)
    · have hi := hburst.unissued (by rw [e]; rfl) (by rw [e]; rfl)
      exact Inv.enter (s := record _ s) h e hi trivial
  | fetch hp =>
    have hb : s.phase.bursting = false := by rw [hp]; rfl
    obtain ⟨i, ho, hbusy, hphase⟩ := hsq.running (by rw [hp]; decide)
    have hs : sendsSymbols i = true := phaseOf_symFetch (hp ▸ hphase)
    obtain ⟨hl, hsent⟩ := hburst.quiet hb
    exact inv_txSymbol _ ((inSymbol_of_op ho).trans hs) hbusy hl hsent (hburst.unissued hb (by rw [hp]; rfl)) hsym

end Sys2Proof.Machine
end


section
/-! PROOFS. Dispatch keeps the controller's invariant (10_state.md R34, R38). -/

namespace Sys2Proof.Machine

/-- Nothing is in progress and nothing is left of a transfer: a state an operation may start from. -/
def Quiet (s : State) : Prop :=
  s.busy = false ∧ s.op = none ∧ s.phase = .idle ∧ s.rem = 0 ∧ s.burstLeft = 0 ∧ s.burstSent = [] ∧ s.issued = false

theorem inv_startFlushIdle {s : State} (h : Quiet s) : Inv (startFlushIdle s) := by
  obtain ⟨-, -, -, -, hl, hsent, hi⟩ := h
  exact ⟨sequenceInv_of_running rfl rfl rfl, burstInv_of_quiet rfl hl hsent hi, rfl,
    (progressInv_iff _).mpr fun hne => absurd rfl hne, nofun⟩

theorem inv_startRawEnd {s : State} (h : Quiet s) : Inv (startRawEnd s) := by
  obtain ⟨-, -, -, -, hl, hsent, hi⟩ := h
  exact ⟨sequenceInv_of_running rfl rfl rfl, burstInv_of_quiet rfl hl hsent hi, rfl,
    (progressInv_iff _).mpr ⟨rfl, nofun⟩, nofun⟩

theorem inv_startRawTx {s : State} (h : Quiet s) (hr : rangeFails s.lAddr s.lLen = false) : Inv (startRawTx s) := by
  obtain ⟨-, -, -, -, hl, hsent, hi⟩ := h
  refine ⟨sequenceInv_of_running rfl rfl rfl, burstInv_of_quiet rfl hl hsent hi, ⟨hr, Nat.le_refl _, _, rfl, ?_⟩,
    (progressInv_iff _).mpr fun _ => ⟨rfl, nofun⟩, nofun⟩
  simp [startRawTx, hsent]

/-- RAW_CONT and RAW_ZERO begin with the test of the refill loop (R112). -/
theorem inv_refillLoop {s : State} {i : Instr} {src : Src} {n : Half} (ho : s.op = some i) (hbusy : s.busy = true)
    (hi : i = .rawCont ∨ i = .rawZero) (hp : s.phase = .idle) (hl : s.burstLeft = 0) (hsent : s.burstSent = [])
    (hu : s.issued = false) (hsrc : SourceInv { s with src := src, rem := n }) : Inv (refillLoop src n s) := by
  have hsym : SymbolInv { s with src := src, rem := n } := fun e => by
    obtain rfl | rfl := hi <;> cases ho.symm.trans e
  have hbet : s.phase.between = false := by rw [hp]; rfl
  unfold refillLoop refillTest
  split
  · rename_i hzero
    exact inv_refillDone ho hbusy hbet hzero hl hsent hu hsrc hsym
  · rename_i hne
    have hseq : phaseOf i .refillWait = true := by obtain rfl | rfl := hi <;> rfl
    exact ⟨sequenceInv_of_running ho hbusy hseq, burstInv_of_quiet rfl hl hsent hu, hsrc.enter hbet.symm,
      (progressInv_iff _).mpr hne, hsym⟩

theorem inv_startRawCont {s : State} (h : Quiet s) (hr : rangeFails s.lAddr s.lLen = false) : Inv (startRawCont s) := by
  obtain ⟨-, -, hp, -, hl, hsent, hi⟩ := h
  refine inv_refillLoop rfl rfl (.inl rfl) hp hl hsent hi ⟨hr, Nat.le_refl _, _, rfl, ?_⟩
  simp [hsent]

theorem inv_startRawZero {s : State} (h : Quiet s) : Inv (startRawZero s) := by
  obtain ⟨-, -, hp, -, hl, hsent, hi⟩ := h
  exact inv_refillLoop rfl rfl (.inr rfl) hp hl hsent hi ⟨Nat.le_refl _, rfl⟩

theorem inv_startTxByte {s : State} (h : Quiet s) : Inv (startTxByte s) := by
  obtain ⟨-, -, -, -, hl, hsent, hi⟩ := h
  exact inv_txSymbol _ rfl rfl hl hsent hi nofun

theorem inv_startTxBuf {s : State} (h : Quiet s) (hr : rangeFails s.lAddr s.lLen = false) : Inv (startTxBuf s) := by
  obtain ⟨-, -, -, hrem, hl, hsent, hi⟩ := h
  unfold startTxBuf
  split
  · exact inv_of_idle rfl rfl rfl hrem hl hsent hi
  · rename_i hne
    have hpos : 0 < s.lLen.toNat := Nat.pos_of_ne_zero fun e => hne (BitVec.eq_of_toNat_eq e)
    exact ⟨sequenceInv_of_running rfl rfl rfl, burstInv_of_quiet rfl hl hsent hi, hrem, (progressInv_iff _).mpr trivial,
      fun _ => ⟨hpos, hr⟩⟩

/-- Dispatch keeps the invariant if the operation's start sets it up from a quiet state. -/
theorem inv_dispatch {i : Instr} {start : State → State} {s : State} (h : Inv s)
    (hstart : ∀ u, Quiet u → (usesHostMemory i = true → rangeFails u.lAddr u.lLen = false) → Inv (start u)) :
    Inv (dispatch i start s) := by
  cases hb : s.busy with
  | true =>
    rw [dispatch_busy hb]
    exact h
  | false =>
    obtain ⟨ho, hp, hrem, hl, hsent, hi⟩ := idle_of_inv h hb
    by_cases hr : usesHostMemory i = true → rangeFails s.argAddr s.argLen = false
    · rw [dispatch_start hb hr]
      exact hstart (latchOperands s) ⟨hb, ho, hp, hrem, hl, hsent, hi⟩ hr
    · obtain ⟨hu, hfails⟩ := Classical.not_imp.mp hr
      rw [dispatch_range hb hu (by simpa using hfails)]
      exact inv_of_idle ho hb hp hrem hl hsent hi

/-- Every dispatch keeps the controller's invariant. -/
theorem exec_inv {i : Instr} {s t : State} (h : Inv s) (he : exec i s = .next t) : Inv t := by
  cases i <;> cases he <;> apply inv_dispatch h <;> intro u hq hr
  case fecEnc =>
    obtain ⟨hb, ho, hp, hrem, hl, hsent, hi⟩ := hq
    exact inv_of_idle ho hb hp hrem hl hsent hi
  case flushIdle => exact inv_startFlushIdle hq
  case rawTx => exact inv_startRawTx hq (hr rfl)
  case rawCont => exact inv_startRawCont hq (hr rfl)
  case rawZero => exact inv_startRawZero hq
  case rawEnd => exact inv_startRawEnd hq
  case txByte => exact inv_startTxByte hq
  case txBuf => exact inv_startTxBuf hq (hr rfl)

end Sys2Proof.Machine
end


section
/-! PROOFS. The FIFO-write stream of the operations without symbols (00_scope.md R16, 41_stream.md R123): what is written and
what is still to come are together the operation's bytes, at its start and after every step of the block. -/

namespace Sys2Proof.Machine

/-! The bytes to come. -/

/-- The next `n` bytes of `seq.src` (R37), where the host changes none of them. -/
def nextBytes (s : State) (n : Nat) : List Byte :=
  match s.src with
  | .host p => bufferBytes s p n
  | .prn sel i => ((patternBytes s sel).drop i).take n
  | .zero => List.replicate n 0

theorem nextBytes_zero {s : State} : nextBytes s 0 = [] := by
  unfold nextBytes
  split <;> rfl

theorem bufferBytes_succ (s : State) (a n : Nat) :
    bufferBytes s a (n + 1) = Memory.read s.mem a :: bufferBytes s (a + 1) n := by
  simp [bufferBytes, List.range_succ_eq_map, Nat.add_assoc, Nat.add_comm 1]

/-- A written byte of a pattern memory stands at its place in the pattern. -/
theorem patternBytes_drop {s : State} {sel : Bool} {i : Nat} {b : Byte} (h : (s.prn sel)[i]? = some (some b)) :
    (patternBytes s sel).drop i = b :: (patternBytes s sel).drop (i + 1) := by
  obtain ⟨hi, hget⟩ := Vector.getElem?_eq_some_iff.mp h
  have hlt : i < (patternBytes s sel).length := by
    rw [patternBytes_length]
    exact hi
  have hb : (patternBytes s sel)[i] = b := by
    simp only [patternBytes, List.getElem_map, Vector.getElem_toList, hget, Option.getD_some]
  rw [List.drop_eq_getElem_cons hlt, hb]

/-- The byte taken is the first of those to come (R37, R112). -/
theorem nextBytes_takeByte {s s1 : State} {b : Byte} (h : takeByte s = .ok (b, s1)) (hs : s.stale = []) (n : Nat) :
    nextBytes s (n + 1) = b :: nextBytes s1 n := by
  obtain ⟨m, rfl⟩ := takeByte_advance h
  cases hsrc : s.src with
  | host p =>
    simp only [takeByte, hsrc] at h
    split at h
    · rename_i hread
      obtain ⟨-, -, hb | hb⟩ := memRead_ok hread
      · obtain ⟨rfl, -⟩ := Prod.mk.inj (Except.ok.inj h)
        simp only [nextBytes, hsrc, Src.advance, bufferBytes_succ, hb]
        rfl
      · rw [staleBytes, hs] at hb
        cases hb
    · cases h
  | prn sel i =>
    simp only [takeByte, hsrc] at h
    split at h
    · rename_i hread
      obtain ⟨rfl, -⟩ := Prod.mk.inj (Except.ok.inj h)
      simp only [nextBytes, hsrc, Src.advance, patternBytes_drop (prnRead_ok hread), List.take_succ_cons]
      rfl
    · cases h
  | zero =>
    simp only [takeByte, hsrc] at h
    obtain ⟨rfl, -⟩ := Prod.mk.inj (Except.ok.inj h)
    simp only [nextBytes, hsrc, Src.advance]
    rfl

/-! The stream so far and the bytes to come. -/

/-- An operation without symbols, no byte of its buffer raced and nothing queued: what it has written since the history had
`base` events and what is to come are together `whole`. -/
def StreamSplit (base : Nat) (whole : List Byte) (s : State) : Prop :=
  s.inSymbol = false ∧ s.stale = [] ∧ s.inputs = [] ∧ base ≤ s.past.length ∧
    fifoStream (s.past.drop base) ++ s.burstSent ++ nextBytes s (s.rem.toNat - s.burstSent.length) = whole

/-- The two states stand at the same point of the same transfer; only the phase, a count of it, or BUSY differ. -/
def SameTransfer (s t : State) : Prop :=
  (t.op = s.op ∨ t.op = none) ∧
    t = { s with op := t.op, busy := t.busy, phase := t.phase, waitLeft := t.waitLeft, burstLeft := t.burstLeft }

theorem StreamSplit.same {base : Nat} {whole : List Byte} {s t : State} (h : StreamSplit base whole s)
    (hst : SameTransfer s t) : StreamSplit base whole t := by
  obtain ⟨hs, hrest⟩ := h
  obtain ⟨ho, ht⟩ := hst
  have hs' : t.inSymbol = false := by
    obtain ho | ho := ho
    · rw [State.inSymbol, ho]; exact hs
    · rw [State.inSymbol, ho]; rfl
  refine ⟨hs', ?_⟩
  rw [ht]
  exact hrest

/-- An event that writes nothing leaves the stream as it is. -/
theorem StreamSplit.record {base : Nat} {whole : List Byte} {s : State} {e : PortEvent} (h : StreamSplit base whole s)
    (he : fifoStream [e] = []) : StreamSplit base whole (record e s) := by
  obtain ⟨hs, hst, hin, hbase, hw⟩ := h
  refine ⟨hs, hst, hin, by simp; omega, ?_⟩
  rw [record_past, List.drop_append_of_le_length hbase, fifoStream_append, he, List.append_nil]
  exact hw

/-- A burst that is closed has written its bytes. -/
theorem StreamSplit.closeBurst {base : Nat} {whole : List Byte} {s : State} (h : StreamSplit base whole s)
    (hle : s.burstSent.length ≤ s.rem.toNat) : StreamSplit base whole (closeBurst s) := by
  obtain ⟨hs, hst, hin, hbase, hw⟩ := h
  refine ⟨hs, hst, hin, by simp; omega, ?_⟩
  rw [closeBurst_past, List.drop_append_of_le_length hbase, fifoStream_append, fifoStream_burst, closeBurst_burstSent,
    List.append_nil, closeBurst_rem_toNat hle]
  exact hw

/-- A byte that is transferred goes over from what is to come to what is written. -/
theorem StreamSplit.byte {base : Nat} {whole : List Byte} {s s2 : State} {left : Nat} {script : List Bool} {n : Nat} {b : Byte}
    (h : StreamSplit base whole s) (hlt : s.burstSent.length < s.rem.toNat)
    (ht : takeByte { s with issued := true, readies := script, draws := n } = .ok (b, s2)) :
    StreamSplit base whole { s2 with burstLeft := left, burstSent := s2.burstSent ++ [b] } := by
  obtain ⟨hs, hst, hin, hbase, hw⟩ := h
  obtain ⟨k, hk⟩ : ∃ k, s.rem.toNat - s.burstSent.length = k + 1 := ⟨s.rem.toNat - s.burstSent.length - 1, by omega⟩
  have hnext : nextBytes s (k + 1) = b :: nextBytes s2 k := nextBytes_takeByte ht hst k
  obtain ⟨m, rfl⟩ := takeByte_advance ht
  refine ⟨hs, hst, hin, hbase, ?_⟩
  have hk' : s.rem.toNat - (s.burstSent ++ [b]).length = k := by simp; omega
  rw [hk, hnext] at hw
  simp only [hk', List.append_assoc, List.singleton_append] at hw ⊢
  exact hw

/-! The operation goes on in the same transfer. -/

theorem sameTransfer_complete {s : State} (hst : s.stale = []) : SameTransfer s (complete s) :=
  ⟨.inr rfl, by simp [complete, hst]⟩

theorem sameTransfer_refillTest {s : State} (hs : s.inSymbol = false) (hst : s.stale = []) :
    SameTransfer s (refillTest s) := by
  unfold refillTest refillDone
  split
  · rw [if_neg (by simp [hs])]
    exact sameTransfer_complete hst
  · exact ⟨.inl rfl, rfl⟩

theorem sameTransfer_afterBurst {s : State} {p : Phase} (hs : s.inSymbol = false) (hst : s.stale = []) :
    SameTransfer s (afterBurst p s) := by
  unfold afterBurst
  split
  · exact ⟨.inl rfl, rfl⟩
  · exact sameTransfer_refillTest hs hst

/-- A burst begins with nothing of it transferred. -/
theorem sameTransfer_enterBurst {s : State} {p : Phase} {k : Nat} (h : s.burstSent = []) :
    SameTransfer s (enterBurst p k s) :=
  ⟨.inl rfl, by simp [enterBurst, h]⟩

/-- After a strobe no byte of the transfer has moved (R119). -/
theorem sameTransfer_afterStrobe {s : State} (b : Byte) (h : Inv s) (hs : s.inSymbol = false) (hst : s.stale = []) :
    SameTransfer s (afterStrobe s.phase b s) := by
  have hsent : s.phase.bursting = false → s.burstSent = [] := fun hp => (h.2.1.quiet hp).2
  cases hp : s.phase with
  | flushCmd => exact ⟨.inl rfl, rfl⟩
  | flushPoll =>
    simp only [afterStrobe, afterFlushPoll]
    split
    · split
      · exact sameTransfer_complete hst
      · exact ⟨.inl rfl, rfl⟩
    · exact ⟨.inl rfl, rfl⟩
  | fifoFlush => exact sameTransfer_enterBurst (hsent (by rw [hp]; rfl))
  | start =>
    simp only [afterStrobe, afterStart, refillDone, hs]
    split
    · exact sameTransfer_complete hst
    · exact ⟨.inl rfl, rfl⟩
  | settlePoll =>
    simp only [afterStrobe, afterSettlePoll, h.refillLoop_after_settle hp]
    split <;> exact ⟨.inl rfl, rfl⟩
  | refillQuery => exact sameTransfer_enterBurst (hsent (by rw [hp]; rfl))
  | endPoll =>
    simp only [afterStrobe, afterEndPoll]
    split <;> exact ⟨.inl rfl, rfl⟩
  | endIdle =>
    have ho : s.op ≠ some .txBuf := fun ho => by rw [inSymbol_of_op ho] at hs; cases hs
    simp only [afterStrobe, afterEndIdle, ho, false_and, if_false]
    exact sameTransfer_complete hst
  | idle | load | refillWait | refillWrite | symWait | symFetch => exact ⟨.inl rfl, rfl⟩

/-- Every move of the block keeps what is written and what is to come together the same. -/
theorem BlockMove.streamSplit {base : Nat} {whole : List Byte} {s t : State} (hm : BlockMove s t) (hinv : Inv s)
    (h : StreamSplit base whole s) : StreamSplit base whole t := by
  have ⟨hs, hst, _⟩ := h
  have ⟨hsq, hburst, _⟩ := hinv
  cases hm with
  | idle => exact h
  | hold => exact h
  | @answer c b script n hp =>
    have hrec : StreamSplit base whole (answerStrobe c b { s with issued := true, statuses := script, draws := n }) :=
      h.record (fifoStream_strobe _ _)
    exact hrec.same (sameTransfer_afterStrobe b (hinv.answerStrobe hp) hs hst)
  | burstHold => exact h
  | byte hp hl ht =>
    obtain ⟨-, hrem, -⟩ := hburst.inBurst hp
    exact h.byte (by omega) ht
  | close hp =>
    obtain ⟨-, hrem, -⟩ := hburst.inBurst hp
    exact (h.closeBurst (by omega)).same (sameTransfer_afterBurst hs hst)
  | tick => exact h
  | waitEnd => exact (h.record (fifoStream_wait _)).same ⟨.inl rfl, rfl⟩
  | fetch hp =>
    obtain ⟨i, ho, -, hphase⟩ := hsq.running (by rw [hp]; decide)
    rw [inSymbol_of_op ho, phaseOf_symFetch (hp ▸ hphase)] at hs
    cases hs

/-! From dispatch to completion. -/

/-- What every step keeps, a run keeps. -/
theorem run_keeps {P : State → Prop} (hstep : ∀ s t, P s → step s = .next t → P t) {k : Nat} {s t : State} (hs : P s)
    (h : Host.Core.run core k s = .next t) : P t := by
  induction k generalizing s with
  | zero => cases h; exact hs
  | succ k ih =>
    simp only [Host.Core.run] at h
    split at h
    · rename_i u hu
      exact ih (hstep s u hs hu) h
    · cases h
    · cases h

/-- An operation that starts with `whole` to come has written `whole` when BUSY is 0 again. -/
theorem fifoStream_of_run {base k : Nat} {whole : List Byte} {s t : State} (hinv : Inv s) (h : StreamSplit base whole s)
    (hrun : Host.Core.run core k s = .next t) (hbusy : t.busy = false) : fifoStream (eventsSince base t) = whole := by
  have hstep : ∀ u v, Inv u ∧ StreamSplit base whole u → step u = .next v → Inv v ∧ StreamSplit base whole v := by
    rintro u v ⟨hu, hsplit⟩ huv
    have ⟨_, _, hin, _⟩ := hsplit
    rw [step_block hin] at huv
    exact ⟨(blockStep_move huv).inv hu, (blockStep_move huv).streamSplit hu hsplit⟩
  obtain ⟨ht, -, -, -, -, hw⟩ := run_keeps (P := fun u => Inv u ∧ StreamSplit base whole u) hstep ⟨hinv, h⟩ hrun
  obtain ⟨-, hp, hrem, -, hsent, -⟩ := idle_of_inv ht hbusy
  rw [hrem, hsent] at hw
  simpa [eventsSince, history_idle hp, nextBytes_zero] using hw

/-- At the start of an operation nothing is written yet. -/
theorem streamSplit_start {s u : State} {whole : List Byte} (hinv : Inv s) (hb : s.busy = false) (hin : u.inputs = [])
    (hst : u.stale = []) (hs : u.inSymbol = false) (hpast : u.past = s.past) (hsent : u.burstSent = s.burstSent)
    (hw : nextBytes u u.rem.toNat = whole) : StreamSplit s.history.length whole u := by
  obtain ⟨-, hp, -, -, hnone, -⟩ := idle_of_inv hinv hb
  have hlen : s.history.length = u.past.length := by rw [history_idle hp, hpast]
  refine ⟨hs, hst, hin, hlen.le, ?_⟩
  rw [hlen, hsent, hnone]
  simpa using hw

/-- The same where the operation begins with the test of the refill loop. -/
theorem streamSplit_startRefill {s u : State} {whole : List Byte} (hinv : Inv s) (hb : s.busy = false) (hin : u.inputs = [])
    (hst : u.stale = []) (hs : u.inSymbol = false) (hpast : u.past = s.past) (hsent : u.burstSent = s.burstSent)
    (hw : nextBytes u u.rem.toNat = whole) : StreamSplit s.history.length whole (refillTest u) :=
  (streamSplit_start hinv hb hin hst hs hpast hsent hw).same (sameTransfer_refillTest hs hst)

theorem rangeFails_eq_false {addr : Word} {len : Half} (h : len.toNat = 0 ∨ addr.toNat + len.toNat ≤ 2 ^ 32) :
    rangeFails addr len = false := by
  refine Bool.eq_false_iff.mpr fun hf => ?_
  simp only [rangeFails, Bool.and_eq_true, decide_eq_true_eq] at hf
  unfold Config.hostSpace at hf
  omega

/-- Settles O56: from its dispatch to its end an operation keeps what it has written and what is to come together its buffer, LEN
zeros, or nothing. -/
theorem streamIsTheBuffer : Obligations.StreamIsTheBuffer := by
  intro s s1 t k hinv hb hin hst hrun hbusy
  refine ⟨fun hrange he => ?_, fun he => ?_, fun he => ?_⟩
  · have hr := rangeFails_eq_false hrange
    refine fifoStream_of_run (he.elim (exec_inv hinv) (exec_inv hinv)) ?_ hrun hbusy
    obtain he | he := he <;> cases he <;> rw [dispatch_start hb fun _ => hr]
    · exact streamSplit_start hinv hb hin hst rfl rfl rfl rfl
    · exact streamSplit_startRefill hinv hb hin hst rfl rfl rfl rfl
  · refine fifoStream_of_run (exec_inv hinv he) ?_ hrun hbusy
    cases he
    rw [dispatch_start (i := .rawZero) hb nofun]
    exact streamSplit_startRefill hinv hb hin hst rfl rfl rfl rfl
  · refine fifoStream_of_run (he.elim (exec_inv hinv) (exec_inv hinv)) ?_ hrun hbusy
    obtain he | he := he <;> cases he
    · rw [dispatch_start (i := .flushIdle) hb nofun]
      exact streamSplit_start hinv hb hin hst rfl rfl rfl nextBytes_zero
    · rw [dispatch_start (i := .rawEnd) hb nofun]
      exact streamSplit_start hinv hb hin hst rfl rfl rfl nextBytes_zero

end Sys2Proof.Machine
end


section
/-! PROOFS. What dispatch can do (10_state.md R34) and what the host and the platform can do, said once (20_memory.md R61 to
R63, 70_reset_and_hazards.md R210): every step is a move of the block or one of theirs, and keeps the controller's invariant
(R38, R119). -/

namespace Sys2Proof.Machine

/-! Dispatch. -/

/-- What starts each operation once its dispatch has passed the checks (R114 to R118, R143, R164, R167). -/
def startOf : Instr → State → State
  | .fecEnc => encodeLatchedByte
  | .flushIdle => startFlushIdle
  | .rawTx => startRawTx
  | .rawCont => startRawCont
  | .rawZero => startRawZero
  | .rawEnd => startRawEnd
  | .txByte => startTxByte
  | .txBuf => startTxBuf

theorem exec_eq (i : Instr) (s : State) : exec i s = .next (dispatch i (startOf i) s) := by
  cases i <;> rfl

/-- A dispatch is dropped with OVR while busy, refused with RANGE, or starts its operation on the latched operands (R34). -/
theorem dispatch_cases (i : Instr) (start : State → State) (s : State) :
    (s.busy = true ∧ dispatch i start s = { s with ovr := true }) ∨
    (s.busy = false ∧ dispatch i start s = { latchOperands s with range := true }) ∨
    (s.busy = false ∧ dispatch i start s = start (latchOperands s)) := by
  obtain hb | hb := Bool.eq_false_or_eq_true s.busy
  · exact .inl ⟨hb, dispatch_busy hb⟩
  · by_cases hr : usesHostMemory i = true ∧ rangeFails s.argAddr s.argLen = true
    · exact .inr (.inl ⟨hb, dispatch_range hb hr.1 hr.2⟩)
    · exact .inr (.inr ⟨hb, dispatch_start hb fun hu => Bool.eq_false_iff.mpr fun hf => hr ⟨hu, hf⟩⟩)

/-- Where nothing keeps an operation from starting, `exec` starts it. -/
theorem exec_starts {i : Instr} {s : State} (hb : s.busy = false)
    (hr : usesHostMemory i = true → rangeFails s.argAddr s.argLen = false) :
    exec i s = .next (startOf i (latchOperands s)) := by
  rw [exec_eq, dispatch_start hb hr]

/-- While busy an operation is dropped with OVR (R183). -/
theorem exec_busy {s : State} (i : Instr) (hb : s.busy = true) : exec i s = .next { s with ovr := true } := by
  rw [exec_eq, dispatch_busy hb]

theorem exec_cases {i : Instr} {s t : State} (h : exec i s = .next t) :
    (s.busy = true ∧ t = { s with ovr := true }) ∨
    (s.busy = false ∧ t = { latchOperands s with range := true }) ∨
    (s.busy = false ∧ t = startOf i (latchOperands s)) := by
  rw [exec_eq] at h
  cases h
  exact dispatch_cases i (startOf i) s

/-! The moves from outside the block. -/

/-- A read of an aligned word is answered and recorded (R61, R79). -/
theorem step_read {s : State} {off : Nat} {rest : List Input} (h : s.inputs = .read 4 off :: rest) (ha : off % 4 = 0) :
    step s = .next (recordRead off { s with inputs := rest }) := by
  rw [step_input h]
  simp [inputStep, hostRead, HostAccess.wellFormed, ha]

/-- A write of an aligned word is the register's write (R61). -/
theorem step_write {s : State} {off : Nat} {w : Word} {rest : List Input} (h : s.inputs = .write 4 off w :: rest)
    (ha : off % 4 = 0) : step s = regWrite off w { s with inputs := rest } := by
  rw [step_input h]
  simp [inputStep, hostWrite, HostAccess.wellFormed, ha]

/-- A register read changes at most the draw counter (R57, R63). -/
theorem regRead_state (off : Nat) (s : State) : ∃ n, (regRead off s).2 = { s with draws := n } := by
  unfold regRead prnReadByHost
  split
  · split
    · exact ⟨s.draws, rfl⟩
    · exact ⟨s.draws + 1, rfl⟩
  · refine ⟨s.draws, ?_⟩
    repeat' split
    all_goals rfl

theorem recordRead_state (off : Nat) (s : State) : ∃ n rs, recordRead off s = { s with draws := n, reads := rs } := by
  obtain ⟨n, hn⟩ := regRead_state off s
  refine ⟨n, s.reads ++ [(off, (regRead off s).1)], ?_⟩
  simp only [recordRead, hn]

/-- The moves of the agents outside the block. `n`, `rs` and `q` are the draw counter, the record of reads and the queue after
a read. -/
inductive InputMove (s : State) : Input → State → Prop
  /-- The host lets the block move. -/
  | block {t} (h : blockStep s = .next t) : InputMove s .block t
  /-- A register is read (R63). -/
  | read {off n rs} : InputMove s (.read 4 off) { s with draws := n, reads := rs }
  /-- A register is polled once (R79). -/
  | poll {off m v n rs q} : InputMove s (.poll off m v) { s with draws := n, reads := rs, inputs := q }
  /-- A legal word is written to CMD (R34). -/
  | dispatch {w i t} (hd : decode w = .ok i) (he : exec i s = .next t) : InputMove s (.write 4 0 w) t
  /-- An illegal word is written to CMD (R181, R183). -/
  | illegal {w e} : InputMove s (.write 4 0 w) (raiseError e s)
  /-- STATUS is written (R26). -/
  | clear {w} : InputMove s (.write 4 4 w) (clearFlags w s)
  /-- An argument register is written, or a write is ignored (R27 to R29, R76). -/
  | argument {off w b n a} : InputMove s (.write 4 off w) { s with argByte := b, argLen := n, argAddr := a }
  /-- A PRN byte is written (R33). -/
  | prn {off w sel i} : InputMove s (.write 4 off w) (prnWrite sel i w s)
  /-- The host writes its own memory (R54). -/
  | memWrite {a v} : InputMove s (.memWrite a v) (hostMemWrite a v s)
  /-- The platform resets the block (R210). -/
  | reset : InputMove s .reset (blockReset s)
  /-- The host has run `init()` (R213). -/
  | init : InputMove s .init (hostInit s)
  /-- The host has run `txInit()` (R213). -/
  | txInit : InputMove s .txInit (hostTxInit s)

theorem regWrite_move {off : Nat} {w : Word} {s t : State} (h : regWrite off w s = .next t) :
    InputMove s (.write 4 off w) t := by
  unfold regWrite at h
  split at h
  · cases h; exact .prn
  split at h
  · subst off
    unfold cmdWrite at h
    split at h
    · exact .dispatch ‹_› h
    · cases h; exact .illegal
  split at h
  · subst off; cases h; exact .clear
  repeat' split at h
  all_goals cases h; exact .argument

/-- What an answered entry of the queue can have done. -/
theorem inputStep_move {x : Input} {s t : State} (h : inputStep x s = .next t) : InputMove s x t := by
  have four {bytes off} (hw : HostAccess.wellFormed bytes off = true) : bytes = 4 := by
    simp only [HostAccess.wellFormed, Bool.and_eq_true, beq_iff_eq] at hw
    exact hw.1
  cases x with
  | block => exact .block h
  | read bytes off =>
    simp only [inputStep, hostRead] at h
    split at h
    · obtain rfl := four ‹_›
      obtain ⟨n, rs, e⟩ := recordRead_state off s
      cases h
      exact e ▸ .read
    · cases h
  | write bytes off w =>
    simp only [inputStep, hostWrite] at h
    split at h
    · obtain rfl := four ‹_›
      exact regWrite_move h
    · cases h
  | poll off m v =>
    obtain ⟨n, rs, e⟩ := recordRead_state off s
    simp only [inputStep, hostPoll, e] at h
    split at h
    · split at h <;> cases h <;> exact .poll
    · cases h
  | memWrite a v => cases h; exact .memWrite
  | reset => cases h; exact .reset
  | init => cases h; exact .init
  | txInit => cases h; exact .txInit

/-- A step is a move of the block, or one of the agent the queue names first. -/
theorem step_move {s t : State} (h : step s = .next t) :
    (s.inputs = [] ∧ BlockMove s t) ∨ ∃ x rest, s.inputs = x :: rest ∧ InputMove { s with inputs := rest } x t := by
  cases hin : s.inputs with
  | nil => exact .inl ⟨rfl, blockStep_move (step_block hin ▸ h)⟩
  | cons x rest => exact .inr ⟨x, rest, rfl, inputStep_move (step_input hin ▸ h)⟩

/-- A PRN write is dropped with OVR while busy, and changes the pattern memories alone while idle (R33, R183). -/
theorem prnWrite_cases (sel : Bool) (i : Nat) (w : Word) (s : State) :
    (s.busy = true ∧ prnWrite sel i w s = raiseError .ovr s) ∨
    (s.busy = false ∧ ∃ p q, prnWrite sel i w s = { s with prn0 := p, prn1 := q }) := by
  unfold prnWrite
  cases hb : s.busy with
  | true => exact .inl ⟨rfl, if_pos rfl⟩
  | false => cases sel <;> exact .inr ⟨rfl, _, _, rfl⟩

theorem hostTxInit_state (s : State) : ∃ r, hostTxInit s = { s with host := r } := by
  unfold hostTxInit
  split <;> exact ⟨_, rfl⟩

/-! The controller's invariant. -/

/-- Every move from outside the block keeps the controller's invariant. -/
theorem InputMove.inv {s t : State} {x : Input} (hm : InputMove s x t) (h : Inv s) : Inv t := by
  cases hm with
  | block hb => exact (blockStep_move hb).inv h
  | dispatch _ he => exact exec_inv h he
  | reset => exact inv_of_idle rfl rfl rfl rfl rfl rfl rfl
  | @prn _ w sel i =>
    obtain ⟨-, e⟩ | ⟨-, p, q, e⟩ := prnWrite_cases sel i w s <;> exact e ▸ h
  | @illegal _ e => cases e <;> exact h
  | txInit =>
    obtain ⟨r, e⟩ := hostTxInit_state s
    exact e ▸ h
  | read | poll | clear | argument | memWrite | init => exact h

/-- Settles O44: the moves of the block keep the invariant, and so do those of the host and the platform. -/
theorem stepKeepsControllerInvariant : Obligations.StepKeepsControllerInvariant := by
  intro s t h hstep
  obtain ⟨-, hm⟩ | ⟨x, rest, -, hm⟩ := step_move hstep
  · exact hm.inv h
  · exact hm.inv (s := { s with inputs := rest }) h

end Sys2Proof.Machine
end

section
/-! PROOFS. Each operation at its dispatch (10_state.md R34, 41_stream.md R114 to R118, 43_spreader.md R164, R167): the state it
leads to, and what it leaves unchanged. -/

namespace Sys2Proof.Machine

/-- Settles O5: offset 0 is CMD, and a CMD write of a word that decodes runs the operation it decodes to. -/
theorem stepRunsDecodedCommand : Obligations.StepRunsDecodedCommand := by
  intro s w i rest hin hd
  rw [step_write hin rfl]
  show cmdWrite w _ = _
  rw [cmdWrite, hd]

/-- RAW_CONT and RAW_ZERO begin with a wait, or complete at once (R112; log 29). -/
theorem refillLoop_eq {s : State} (src : Src) (n : Half) (hs : s.inSymbol = false) :
    refillLoop src n s =
      if n = 0 then complete { s with src := src, rem := n } else enterRefillWait { s with src := src, rem := n } := by
  have hd : refillDone { s with src := src, rem := n } = complete { s with src := src, rem := n } :=
    if_neg (ne_true_of_eq_false hs)
  rw [← hd]
  rfl

/-- Settles O10: neither uses host memory, so nothing but BUSY keeps it from starting. -/
theorem flushIdleAndRawEndBegin : Obligations.FlushIdleAndRawEndBegin :=
  fun _ hb => ⟨exec_starts hb nofun, exec_starts hb nofun⟩

/-- Settles O11: a range inside the address space passes the check, and RAW_TX starts its stream. -/
theorem rawTxBegins : Obligations.RawTxBegins :=
  fun _ hb hrange => exec_starts hb fun _ => rangeFails_eq_false hrange

/-- Settles O12: the refill loop of RAW_CONT begins with its test. -/
theorem rawContBegins : Obligations.RawContBegins := by
  intro s hb hrange
  rw [exec_starts hb fun _ => rangeFails_eq_false hrange, startOf, startRawCont, refillLoop_eq _ _ rfl]
  by_cases hz : s.argLen = 0 <;>
    simp only [complete, enterRefillWait, beginOp, latchOperands, hz, if_true, if_false]

/-- Settles O13: RAW_ZERO has no range to check, and its refill loop begins with its test. -/
theorem rawZeroBegins : Obligations.RawZeroBegins := by
  intro s hb
  rw [exec_starts (i := .rawZero) hb nofun, startOf, startRawZero, refillLoop_eq _ _ rfl]
  by_cases hz : s.argLen = 0 <;>
    simp only [complete, enterRefillWait, beginOp, latchOperands, hz, if_true, if_false]

/-- The first chip of every symbol is 1, whatever the payload byte: it is the first bit of the preamble (R161, R162). -/
theorem chipWord_first (masks : Vector Byte 8) (d : Byte) : (chipWord masks d).getLsbD 29 = true := by
  have hbit : (0b1110010#7 ++ fecParity masks d ++ d ++ 0b1011000#7 : BitVec (7 + 8 + 8 + 7)).getLsbD 29 = true := by
    simp only [BitVec.getLsbD_append]
    rfl
  exact hbit

/-- Settles O14: the symbol begins with chip 0, which is 1, so its source is PRN1. -/
theorem txByteBegins : Obligations.TxByteBegins := by
  intro s hb
  rw [exec_starts (i := .txByte) hb nofun, startOf, startTxByte, txSymbol, chipWord_first]
  rfl

/-- Settles O15: TX_BUF tests LEN before its first fetch. -/
theorem txBufBegins : Obligations.TxBufBegins := by
  intro s hb hrange
  rw [exec_starts hb fun _ => rangeFails_eq_false hrange, startOf, startTxBuf]
  by_cases hz : s.argLen = 0 <;> simp only [complete, beginOp, latchOperands, hz, if_true, if_false]

/-! Frames. -/

/-- Settles O17: a dispatch is dropped, refused or starts the operation, and each start only sets the sequencing state. -/
theorem streamDispatchFrame : Obligations.StreamDispatchFrame := by
  intro i s t hi he
  have ht : t = { s with
      ovr := t.ovr, range := t.range, lByte := t.lByte, lLen := t.lLen, lAddr := t.lAddr, busy := t.busy, op := t.op,
      phase := t.phase, chip := t.chip, symidx := t.symidx, rem := t.rem, src := t.src, waitLeft := t.waitLeft,
      stale := t.stale } := by
    obtain ⟨-, rfl⟩ | ⟨-, rfl⟩ | ⟨-, rfl⟩ := exec_cases he
    · rfl
    · rfl
    · obtain rfl | rfl | rfl | rfl | rfl := hi
      · rfl
      · rfl
      · simp only [startOf, startRawCont]
        rw [refillLoop_eq _ _ rfl]
        split <;> rfl
      · simp only [startOf, startRawZero]
        rw [refillLoop_eq _ _ rfl]
        split <;> rfl
      · rfl
  exact ⟨ht, fun a => congrArg (fun u => Memory.read u.mem a) ht⟩

/-- Settles O18: as for the streaming operations; a symbol that begins sets SB and CW besides. -/
theorem transmitDispatchFrame : Obligations.TransmitDispatchFrame := by
  intro i s t hi he
  have ht : t = { s with
      ovr := t.ovr, range := t.range, lByte := t.lByte, lLen := t.lLen, lAddr := t.lAddr, busy := t.busy, op := t.op,
      phase := t.phase, chip := t.chip, symidx := t.symidx, rem := t.rem, src := t.src, sb := t.sb, cw := t.cw,
      stale := t.stale } := by
    obtain ⟨-, rfl⟩ | ⟨-, rfl⟩ | ⟨-, rfl⟩ := exec_cases he
    · rfl
    · rfl
    · obtain rfl | rfl := hi
      · rfl
      · simp only [startOf, startTxBuf]
        split <;> rfl
  exact ⟨ht, fun a => congrArg (fun u => Memory.read u.mem a) ht⟩

end Sys2Proof.Machine
end

section
/-! PROOFS. What a block step leaves unchanged (20_memory.md R51, R69), and strobes and bursts, one block step each
(40_port.md R92, R94). -/

namespace Sys2Proof.Machine

/-- Only the sequencing state, the burst and the wait to come, the race record and the draw counter may differ: no register, no
event, no script and nothing in flight. -/
def SequencingFrame (s t : State) : Prop :=
  t = { s with
    busy := t.busy, op := t.op, phase := t.phase, chip := t.chip, symidx := t.symidx, rem := t.rem, src := t.src,
    burstLeft := t.burstLeft, burstSent := t.burstSent, waitLeft := t.waitLeft, stale := t.stale, draws := t.draws }

theorem sequencingFrame_refillDone (s : State) : SequencingFrame s (refillDone s) := by
  unfold refillDone nextChip
  repeat' split
  all_goals rfl

theorem sequencingFrame_refillTest (s : State) : SequencingFrame s (refillTest s) := by
  unfold refillTest
  split
  · exact sequencingFrame_refillDone s
  · rfl

theorem sequencingFrame_afterSettlePoll (b : Byte) (s : State) : SequencingFrame s (afterSettlePoll b s) := by
  unfold afterSettlePoll
  split
  · exact sequencingFrame_refillTest { s with src := s.src, rem := _ }
  · rfl

theorem sequencingFrame_afterStrobe (p : Phase) (b : Byte) (s : State) : SequencingFrame s (afterStrobe p b s) := by
  cases p with
  | flushPoll =>
    simp only [afterStrobe, afterFlushPoll]
    repeat' split
    all_goals rfl
  | start =>
    simp only [afterStrobe, afterStart]
    split
    · exact sequencingFrame_refillDone s
    · rfl
  | settlePoll => exact sequencingFrame_afterSettlePoll b s
  | endPoll =>
    simp only [afterStrobe, afterEndPoll]
    split <;> rfl
  | endIdle =>
    simp only [afterStrobe, afterEndIdle]
    split <;> rfl
  | _ => rfl

theorem sequencingFrame_afterBurst (p : Phase) (s : State) : SequencingFrame s (afterBurst p s) := by
  unfold afterBurst
  split
  · rfl
  · exact sequencingFrame_refillTest s

/-- A move of the block changes no register of the host, no error flag, no latch, no PRN byte, no host memory. -/
def BlockFrame (s t : State) : Prop :=
  t = { s with
    busy := t.busy, lastRStatus := t.lastRStatus, op := t.op, phase := t.phase, chip := t.chip, symidx := t.symidx,
    rem := t.rem, src := t.src, issued := t.issued, burstLeft := t.burstLeft, burstSent := t.burstSent,
    waitLeft := t.waitLeft, cw := t.cw, sb := t.sb, stale := t.stale, statuses := t.statuses, readies := t.readies,
    draws := t.draws, past := t.past }

theorem SequencingFrame.blockFrame {s u t : State} (h : SequencingFrame u t) (hu : BlockFrame s u) : BlockFrame s t := by
  unfold BlockFrame
  rw [h, hu]

theorem BlockMove.frame {s t : State} (hm : BlockMove s t) : BlockFrame s t := by
  cases hm with
  | answer => exact (sequencingFrame_afterStrobe _ _ _).blockFrame rfl
  | close => exact (sequencingFrame_afterBurst _ _).blockFrame rfl
  | byte _ _ ht =>
    obtain ⟨n, src, rfl⟩ := takeByte_ok ht
    rfl
  | _ => rfl

/-! Strobes and bursts. -/

theorem step_strobe {s : State} {c : RadioCommand} (hin : s.inputs = []) (hp : s.phase.command = some c) :
    step s = strobeStep c (afterStrobe s.phase) s := (step_block hin).trans (blockStep_strobe hp)

theorem step_burst {s : State} (hin : s.inputs = []) (hp : s.phase.bursting = true) :
    step s = burstStep (afterBurst s.phase) s := (step_block hin).trans (blockStep_burst hp)

/-- Settles O25: a strobe phase makes a strobe step of its command, and what follows the answer leaves status, script and history
alone. -/
theorem strobeHoldsOrCompletes : Obligations.StrobeHoldsOrCompletes := by
  intro s code hin hcode
  obtain ⟨c, hp, rfl⟩ : ∃ c, s.phase.command = some c ∧ s.params.strobeCode.code c = code := by
    simp only [List.mem_cons, Prod.mk.injEq, List.not_mem_nil, or_false] at hcode
    obtain ⟨h, rfl⟩ | ⟨h, rfl⟩ | ⟨h, rfl⟩ | ⟨h, rfl⟩ | ⟨h, rfl⟩ | ⟨h, rfl⟩ | ⟨h, rfl⟩ | ⟨h, rfl⟩ := hcode <;>
      rw [h] <;> exact ⟨_, rfl, rfl⟩
  refine ⟨fun rest hst => ?_, fun b rest hst => ?_⟩
  · exact ⟨_, (step_strobe hin hp).trans (strobeStep_cons hst), rfl, history_strobe hp rfl⟩
  · refine ⟨_, (step_strobe hin hp).trans (strobeStep_cons hst), ?_⟩
    have hseq := sequencingFrame_afterStrobe s.phase b (answerStrobe c b { s with issued := true, statuses := rest })
    exact ⟨congrArg State.lastRStatus hseq, congrArg State.statuses hseq, congrArg State.issued hseq,
      congrArg State.past hseq⟩

theorem takeByte_host {s : State} {p : Nat} (hsrc : s.src = .host p) (ha : admitted s.params p = true)
    (hs : s.stale = []) : takeByte s = .ok (Memory.read s.mem p, { s with src := .host (p + 1) }) := by
  simp only [takeByte, hsrc, memRead_plain ha hs]

theorem takeByte_prn {s : State} {sel : Bool} {i : Nat} {b : Byte} (hsrc : s.src = .prn sel i)
    (hb : (s.prn sel)[i]? = some (some b)) : takeByte s = .ok (b, { s with src := .prn sel (i + 1) }) := by
  simp only [takeByte, hsrc, prnRead, hb]

theorem takeByte_zero {s : State} (hsrc : s.src = .zero) : takeByte s = .ok (0, s) := by
  simp only [takeByte, hsrc]

/-- A burst that has been issued stands in the history with the bytes transferred so far (R94). -/
theorem history_burst {s : State} (hp : s.phase.bursting = true) (hi : s.issued = true) :
    s.history = s.past ++ [.burst s.burstSent] := by
  obtain h | h := s.phase.bursting_iff.mp hp <;>
    simp [State.history, State.openEvent, State.inFlight, Phase.waitKind, Txn.event, h, hi]

/-- Settles O28: a burst phase makes a burst step, whose byte is the one `takeByte` gives. -/
theorem burstTransfersSourceBytes : Obligations.BurstTransfersSourceBytes := by
  intro s hin hp
  rw [step_burst hin hp]
  refine ⟨fun left rest hl hr => ?_, fun left rest p hl hr hsrc ha hst => ?_, fun left rest sel i b hl hr hsrc hb => ?_,
    fun left rest hl hr hsrc => ?_, history_burst hp, fun hl => ?_⟩
  · exact ⟨_, burstStep_held hl hr, rfl, history_burst hp rfl⟩
  · exact burstStep_taken hl hr (takeByte_host hsrc ha hst)
  · exact burstStep_taken hl hr (takeByte_prn hsrc hb)
  · exact burstStep_taken hl hr (takeByte_zero hsrc)
  · have hseq := sequencingFrame_afterBurst s.phase (closeBurst s)
    refine ⟨_, burstStep_closed hl, congrArg State.past hseq, congrArg State.issued hseq, fun hload => ?_⟩
    rw [afterBurst, if_pos hload]
    rfl

end Sys2Proof.Machine
end

section
/-! PROOFS. What no move but the ones named can do: write RESULT (10_state.md R30), clear an error flag (60_exceptions.md
R187), disturb the operation in progress (41_stream.md R125). -/

namespace Sys2Proof.Machine

/-- The opcode map lists each operation under its opcode (R71). -/
theorem opcode_of_opcodeMap : ∀ row ∈ opcodeMap, row.1 = row.2.opcode := by decide

/-- A word that decodes to an operation has its opcode in bits [7:0] (R71, R77). -/
theorem opcodeOf_of_decode {w : Word} {i : Instr} (h : decode w = .ok i) : opcodeOf w = i.opcode := by
  unfold decode decodeOpcode at h
  split at h
  · rename_i row hfind
    cases h
    have hopc : row.1 = opcodeOf w := by simpa using List.find?_some hfind
    exact hopc ▸ opcode_of_opcodeMap row (List.mem_of_find?_eq_some hfind)
  · cases h

/-- The start of an operation raises no flag, and writes RESULT only for FEC_ENC (R143, R182). -/
theorem startOf_registers (i : Instr) (s : State) :
    (i ≠ .fecEnc → (startOf i s).result = s.result) ∧
      (startOf i s).ill = s.ill ∧ (startOf i s).ovr = s.ovr ∧ (startOf i s).range = s.range := by
  cases i with
  | rawCont =>
    rw [startOf, startRawCont, refillLoop_eq _ _ rfl]
    split <;> exact ⟨fun _ => rfl, rfl, rfl, rfl⟩
  | rawZero =>
    rw [startOf, startRawZero, refillLoop_eq _ _ rfl]
    split <;> exact ⟨fun _ => rfl, rfl, rfl, rfl⟩
  | txBuf =>
    rw [startOf, startTxBuf]
    split <;> exact ⟨fun _ => rfl, rfl, rfl, rfl⟩
  | fecEnc => exact ⟨fun h => absurd rfl h, rfl, rfl, rfl⟩
  | flushIdle | rawTx | rawEnd | txByte => exact ⟨fun _ => rfl, rfl, rfl, rfl⟩

theorem exec_result {i : Instr} {s t : State} (h : exec i s = .next t) (hne : t.result ≠ s.result) :
    i = .fecEnc ∧ s.busy = false := by
  obtain ⟨-, rfl⟩ | ⟨-, rfl⟩ | ⟨hb, rfl⟩ := exec_cases h
  · exact absurd rfl hne
  · exact absurd rfl hne
  · by_contra hno
    exact hne ((startOf_registers i (latchOperands s)).1 fun hi => hno ⟨hi, hb⟩)

/-- Every flag that is set stays set. -/
def FlagsStay (s t : State) : Prop :=
  (s.ill = true → t.ill = true) ∧ (s.ovr = true → t.ovr = true) ∧ (s.range = true → t.range = true)

theorem flagsStay_of_eq {s t : State} (hi : t.ill = s.ill) (ho : t.ovr = s.ovr) (hr : t.range = s.range) :
    FlagsStay s t := ⟨hi.trans, ho.trans, hr.trans⟩

theorem flagsStay_raiseError (e : ErrorCode) (s : State) : FlagsStay s (raiseError e s) := by
  cases e with
  | ill => exact ⟨fun _ => rfl, id, id⟩
  | ovr => exact ⟨id, fun _ => rfl, id⟩
  | range => exact ⟨id, id, fun _ => rfl⟩

theorem exec_flagsStay {i : Instr} {s t : State} (h : exec i s = .next t) : FlagsStay s t := by
  obtain ⟨-, rfl⟩ | ⟨-, rfl⟩ | ⟨-, rfl⟩ := exec_cases h
  · exact flagsStay_raiseError .ovr s
  · exact flagsStay_raiseError .range (latchOperands s)
  · obtain ⟨-, hi, ho, hr⟩ := startOf_registers i (latchOperands s)
    exact flagsStay_of_eq hi ho hr

/-- Of the moves from outside only FEC_ENC dispatched while idle and block reset write RESULT (R30). -/
theorem InputMove.result {s t : State} {x : Input} (hm : InputMove s x t) (hne : t.result ≠ s.result) :
    x = .reset ∨ ∃ w, x = .write 4 0 w ∧ decode w = .ok .fecEnc ∧ s.busy = false := by
  cases hm with
  | block hb => exact absurd (congrArg State.result (blockStep_move hb).frame) hne
  | dispatch hd he =>
    obtain ⟨rfl, hb⟩ := exec_result he hne
    exact .inr ⟨_, rfl, hd, hb⟩
  | reset => exact .inl rfl
  | @illegal _ e => cases e <;> exact absurd rfl hne
  | @prn _ w sel i =>
    obtain ⟨-, e⟩ | ⟨-, p, q, e⟩ := prnWrite_cases sel i w s <;> exact absurd (congrArg State.result e) hne
  | txInit =>
    obtain ⟨r, e⟩ := hostTxInit_state s
    exact absurd (congrArg State.result e) hne
  | read | poll | clear | argument | memWrite | init => exact absurd rfl hne

/-- Settles O50: the block never writes RESULT, and of the moves from outside only two do. -/
theorem onlyFecEncWritesResult : Obligations.OnlyFecEncWritesResult := by
  intro s t hstep hne
  obtain ⟨-, hm⟩ | ⟨x, rest, hin, hm⟩ := step_move hstep
  · exact absurd (congrArg State.result hm.frame) hne
  · obtain rfl | ⟨w, rfl, hd, hb⟩ := hm.result hne
    · exact .inl ⟨rest, hin⟩
    · exact .inr ⟨w, rest, hin, opcodeOf_of_decode hd, hb⟩

theorem BlockMove.flagsStay {s t : State} (hm : BlockMove s t) : FlagsStay s t := by
  have hi := congrArg State.ill hm.frame
  have ho := congrArg State.ovr hm.frame
  have hr := congrArg State.range hm.frame
  exact flagsStay_of_eq hi ho hr

/-- Of the moves from outside only a write to STATUS and block reset clear a flag (R187). -/
theorem InputMove.flagsStay {s t : State} {x : Input} (hm : InputMove s x t) :
    x = .reset ∨ (∃ w, x = .write 4 4 w ∧ t = clearFlags w s) ∨ FlagsStay s t := by
  cases hm with
  | reset => exact .inl rfl
  | clear => exact .inr (.inl ⟨_, rfl, rfl⟩)
  | block hb => exact .inr (.inr (blockStep_move hb).flagsStay)
  | dispatch _ he => exact .inr (.inr (exec_flagsStay he))
  | illegal => exact .inr (.inr (flagsStay_raiseError _ _))
  | @prn _ w sel i =>
    obtain ⟨-, e⟩ | ⟨-, p, q, e⟩ := prnWrite_cases sel i w s <;> rw [e]
    · exact .inr (.inr (flagsStay_raiseError _ _))
    · exact .inr (.inr ⟨id, id, id⟩)
  | txInit =>
    obtain ⟨r, e⟩ := hostTxInit_state s
    exact .inr (.inr (e ▸ ⟨id, id, id⟩))
  | read | poll | argument | memWrite | init => exact .inr (.inr ⟨id, id, id⟩)

theorem step_flagsStay {s t : State} (h : step s = .next t) :
    (∃ rest, s.inputs = .reset :: rest) ∨
    (∃ w rest, s.inputs = .write 4 4 w :: rest ∧ t = clearFlags w { s with inputs := rest }) ∨ FlagsStay s t := by
  obtain ⟨-, hm⟩ | ⟨x, rest, hin, hm⟩ := step_move h
  · exact .inr (.inr hm.flagsStay)
  · obtain rfl | ⟨w, rfl, rfl⟩ | hs := hm.flagsStay
    · exact .inl ⟨rest, hin⟩
    · exact .inr (.inl ⟨w, rest, hin, rfl⟩)
    · exact .inr (.inr hs)

/-- A flag that is cleared by a mask bit had that bit 1. -/
theorem bit_of_cleared {flag bit : Bool} (hf : flag = true) (h : (flag && !bit) = false) : bit = true := by
  subst hf
  simpa using h

/-- Settles O51: every other move lets the flags stay, and a write to STATUS clears those whose bit is 1. -/
theorem errorFlagsAreSticky : Obligations.ErrorFlagsAreSticky := by
  intro s t hstep hno
  obtain ⟨rest, hin⟩ | ⟨w, rest, hin, rfl⟩ | ⟨hill, hovr, hrange⟩ := step_flagsStay hstep
  · exact absurd hin (hno rest)
  · exact ⟨fun hf hc => ⟨w, rest, hin, bit_of_cleared hf hc⟩, fun hf hc => ⟨w, rest, hin, bit_of_cleared hf hc⟩,
      fun hf hc => ⟨w, rest, hin, bit_of_cleared hf hc⟩⟩
  · exact ⟨fun hf hc => absurd (hill hf) (ne_true_of_eq_false hc), fun hf hc => absurd (hovr hf) (ne_true_of_eq_false hc),
      fun hf hc => absurd (hrange hf) (ne_true_of_eq_false hc)⟩

/-- What a move of the host may change while an operation runs (R25, R125). -/
def HostFrame (s t : State) : Prop :=
  t = { s with
    argByte := t.argByte, argLen := t.argLen, argAddr := t.argAddr, ill := t.ill, ovr := t.ovr, range := t.range,
    mem := t.mem, stale := t.stale, inputs := t.inputs, draws := t.draws, reads := t.reads, host := t.host }

theorem InputMove.hostFrame {s t : State} {x : Input} (hm : InputMove s x t) (hblock : x ≠ .block) (hreset : x ≠ .reset)
    (hb : s.busy = true) : HostFrame s t := by
  cases hm with
  | block => exact absurd rfl hblock
  | reset => exact absurd rfl hreset
  | dispatch _ he =>
    rw [exec_busy _ hb] at he
    cases he
    rfl
  | @illegal _ e => cases e <;> rfl
  | @prn _ w sel i =>
    obtain ⟨-, e⟩ | ⟨hidle, -⟩ := prnWrite_cases sel i w s
    · rw [e]; rfl
    · rw [hb] at hidle; cases hidle
  | txInit => rw [hostTxInit, if_pos hb]; rfl
  | read | poll | clear | argument | memWrite | init => rfl

/-- Settles O49: while busy the moves of the host that could touch the operation are dropped with OVR. -/
theorem hostCannotDisturbOperation : Obligations.HostCannotDisturbOperation := by
  intro s t x rest hin hblock hreset hb hstep
  rw [step_input hin] at hstep
  exact (inputStep_move hstep).hostFrame hblock hreset hb

end Sys2Proof.Machine
end

section
/-! PROOFS. The registers (10_state.md R23 to R33, R36) and their values after block reset (R41). -/

namespace Sys2Proof.Machine

/-- A read that takes no free value changes only the queue and the record of reads (R63, R79). -/
theorem step_read_value {s : State} {off : Nat} {v : Word} {rest : List Input} (h : s.inputs = .read 4 off :: rest)
    (ha : off % 4 = 0) (hv : regRead off { s with inputs := rest } = (v, { s with inputs := rest })) :
    step s = .next { s with inputs := rest, reads := s.reads ++ [(off, v)] } := by
  rw [step_read h ha, recordRead, hv]

theorem zero_append_eq_setWidth {n w : Nat} (x : BitVec n) : 0#w ++ x = x.setWidth (w + n) := by
  rw [BitVec.setWidth_eq_append (Nat.le_add_left n w)]
  ext
  simp

/-- Outside [0x100, 0x300) no offset names a PRN byte (R23). -/
theorem prnRegister_outside {off : Nat} (h : off < 0x100 ∨ 0x300 ≤ off) : prnRegister off = none := by
  rw [prnRegister, if_neg (by omega), if_neg (by omega)]

/-- A read-only register and an offset outside the map ignore a write (R30 to R32, R76). -/
theorem regWrite_ignored {off : Nat} {w : Word} {s : State} (h : (0x014 ≤ off ∧ off < 0x100) ∨ 0x300 ≤ off) :
    regWrite off w s = .next s := by
  simp only [regWrite, prnRegister_outside (off := off) (by omega)]
  repeat rw [if_neg (by omega)]

/-- An offset outside the map reads 0 (R76). -/
theorem regRead_reserved {off : Nat} {s : State} (h : (0x020 ≤ off ∧ off < 0x100) ∨ 0x300 ≤ off) :
    regRead off s = (0, s) := by
  simp only [regRead, prnRegister_outside (off := off) (by omega)]
  repeat rw [if_neg (by omega)]

/-! STATUS, the argument registers, the read-only registers. -/

/-- The fields of a word laid out as STATUS is (R26). -/
theorem statusLayout_fields (hi last : BitVec 8) (mid phase low : BitVec 4) (range ovr ill busy : Bool) :
    let w := hi ++ last ++ mid ++ phase ++ low ++ BitVec.ofBool range ++ BitVec.ofBool ovr ++ BitVec.ofBool ill
      ++ BitVec.ofBool busy
    (w.getLsbD 0 = busy ∧ w.getLsbD 1 = ill ∧ w.getLsbD 2 = ovr ∧ w.getLsbD 3 = range) ∧ w.extractLsb' 4 4 = low ∧
      w.extractLsb' 12 4 = mid ∧ w.extractLsb' 8 4 = phase ∧ w.extractLsb' 16 8 = last ∧ w.extractLsb' 24 8 = hi := by
  constructor
  · simp only [BitVec.getLsbD_append, BitVec.getLsbD_ofBool]
    exact ⟨rfl, rfl, rfl, rfl⟩
  · simp (disch := decide) only [BitVec.extractLsb'_append_eq_of_le, BitVec.extractLsb'_append_eq_of_add_le]
    refine ⟨?_, ?_, ?_, ?_, ?_⟩ <;> exact BitVec.extractLsb'_eq_self

/-- Settles O35: the fields of STATUS are appended in the order of their bits, and each phase has its code. -/
theorem statusRegisterFields : Obligations.StatusRegisterFields := by
  refine ⟨fun s rest h => ⟨_, step_read_value h rfl rfl, ?_⟩, fun s w rest h => step_write h rfl, rfl⟩
  obtain ⟨⟨hbusy, hill, hovr, hrange⟩, hlow, hmid, hphase, hlast, hhi⟩ :=
    statusLayout_fields 0 s.lastRStatus 0 s.phase.code 0 s.range s.ovr s.ill s.busy
  refine ⟨hbusy, hill, hovr, hrange, hlow, hmid, ?_, hlast, hhi⟩
  have hcode : (statusWord s).extractLsb' 8 4 = s.phase.code := hphase
  show (s.phase, (statusWord s).extractLsb' 8 4) ∈ _
  rw [hcode]
  cases s.phase <;> decide

/-- Settles O36: each argument register is a field of the state, written and read at its own offset. -/
theorem argumentRegisters : Obligations.ArgumentRegisters := by
  refine ⟨fun s w rest => ⟨fun h => ?_, fun h => ?_, fun h => step_write h rfl⟩,
    fun s rest => ⟨fun h => ?_, fun h => ?_, fun h => step_read_value h rfl rfl⟩, rfl, rfl, rfl⟩
  · rw [← BitVec.setWidth_eq_extractLsb' (by decide)]
    exact step_write h rfl
  · rw [← BitVec.setWidth_eq_extractLsb' (by decide)]
    exact step_write h rfl
  · rw [zero_append_eq_setWidth]
    exact step_read_value h rfl rfl
  · rw [zero_append_eq_setWidth]
    exact step_read_value h rfl rfl

/-- The fields of a word laid out as PROGRESS is (R31). -/
theorem progressLayout_fields (hi : BitVec 11) (chip : BitVec 5) (rem : Half) :
    let w := hi ++ chip ++ rem
    w.extractLsb' 0 16 = rem ∧ w.extractLsb' 16 5 = chip ∧ w.extractLsb' 21 11 = hi := by
  simp (disch := decide) only [BitVec.extractLsb'_append_eq_of_le, BitVec.extractLsb'_append_eq_of_add_le]
  refine ⟨?_, ?_, ?_⟩ <;> exact BitVec.extractLsb'_eq_self

/-- Settles O37: no write reaches the offsets named, and the reads give the fields; a chip number fits its five bits. -/
theorem readOnlyAndReservedOffsets : Obligations.ReadOnlyAndReservedOffsets := by
  intro s w rest
  refine ⟨fun h => step_read_value h rfl rfl, fun h => ?_, fun h => ⟨_, step_read_value h rfl rfl, ?_⟩,
    fun h => step_read_value h rfl rfl, fun off ha hoff h => ?_, fun off ha hoff h => ?_⟩
  · rw [zero_append_eq_setWidth]
    exact step_read_value h rfl rfl
  · obtain ⟨hrem, hchip, hhi⟩ := progressLayout_fields 0 (BitVec.ofNat 5 s.chip.val) s.rem
    have hfits : (BitVec.ofNat 5 s.chip.val).toNat = s.chip.val := by
      have := s.chip.isLt
      rw [BitVec.toNat_ofNat]
      omega
    exact ⟨hrem, (congrArg BitVec.toNat hchip).trans hfits, hhi⟩
  · rw [step_write h ha, regWrite_ignored hoff]
  · exact step_read_value h ha (regRead_reserved hoff)

/-! The pattern memories. -/

/-- The offset of a PRN byte names that byte (R23). -/
theorem prnRegister_offset (sel : Bool) (i : Fin 64) :
    prnRegister ((if sel then 0x200 else 0x100) + 4 * i.val) = some (sel, i.val) := by
  have hi := i.isLt
  cases sel <;> simp only [prnRegister, Bool.false_eq_true, if_true, if_false]
  · rw [if_pos (by omega)]
    simp
  · rw [if_neg (by omega), if_pos (by omega)]
    simp

theorem regWrite_prn {off : Nat} {sel : Bool} {i : Nat} {w : Word} {s : State} (h : prnRegister off = some (sel, i)) :
    regWrite off w s = .next (prnWrite sel i w s) := by
  simp only [regWrite, h]

/-- A written PRN byte is read back (R33). -/
theorem regRead_prn {off : Nat} {sel : Bool} {i : Nat} {b : Byte} {s : State} (h : prnRegister off = some (sel, i))
    (hb : (s.prn sel)[i]? = some (some b)) : regRead off s = (b.setWidth 32, s) := by
  simp only [regRead, prnReadByHost, h, hb]

/-- While idle a PRN write stores its byte in its pattern and leaves the other pattern alone (R33). -/
theorem prnWrite_prn {s : State} (sel : Bool) (i : Nat) (w : Word) (hb : s.busy = false) :
    (prnWrite sel i w s).prn sel = (s.prn sel).setIfInBounds i (some (w.setWidth 8)) ∧
      (prnWrite sel i w s).prn (!sel) = s.prn (!sel) := by
  rw [prnWrite, if_neg (ne_true_of_eq_false hb)]
  cases sel <;> exact ⟨rfl, rfl⟩

/-- Settles O38: a write names its byte by the offset and stores there, and a read finds what is stored. -/
theorem prnRegisters : Obligations.PrnRegisters := by
  have aligned (sel : Bool) (i : Fin 64) : ((if sel then 0x200 else 0x100) + 4 * i.val) % 4 = 0 := by
    cases sel <;> simp
  refine ⟨fun s sel i w rest hb hin => ?_, fun s sel i b rest hbyte hin => ?_⟩
  · refine ⟨_, (step_write hin (aligned sel i)).trans (regWrite_prn (prnRegister_offset sel i)), ?_⟩
    obtain ⟨hsame, hother⟩ := prnWrite_prn (s := { s with inputs := rest }) sel i w hb
    obtain ⟨hbusy, -⟩ | ⟨-, p, q, he⟩ := prnWrite_cases sel i w { s with inputs := rest }
    · exact absurd hbusy (ne_true_of_eq_false hb)
    · rw [← BitVec.setWidth_eq_extractLsb' (by decide), hsame]
      refine ⟨?_, fun j hj => ?_, hother, he ▸ rfl⟩
      · exact Vector.getElem_setIfInBounds_self i.isLt
      · exact Vector.getElem_setIfInBounds_ne j.isLt fun e => hj (Fin.ext e.symm)
  · rw [zero_append_eq_setWidth]
    refine step_read_value hin (aligned sel i) (regRead_prn (prnRegister_offset sel i) ?_)
    exact Vector.getElem?_eq_some_iff.mpr ⟨i.isLt, hbyte⟩

/-! Block reset. -/

/-- Settles O41: `blockReset` starts from the reset state, and keeps what is not the block's. -/
theorem blockResetValues : Obligations.BlockResetValues := by
  intro s rest hin
  have hprn (sel : Bool) (i : Fin 64) : ((blockReset { s with inputs := rest }).prn sel)[i] = none := by
    cases sel <;> exact Vector.getElem_replicate i.isLt
  have hstatus : statusWord (blockReset { s with inputs := rest }) = 0 := by simp [statusWord, Phase.code]
  have hprogress : progressWord (blockReset { s with inputs := rest }) = 0 := by simp [progressWord]
  have hsymidx : symidxWord (blockReset { s with inputs := rest }) = 0 := by simp [symidxWord]
  exact ⟨blockReset { s with inputs := rest }, step_input hin, hstatus, rfl, rfl, rfl, rfl, rfl, rfl, rfl, rfl, rfl, rfl,
    hprogress, hsymidx, rfl, rfl, rfl, rfl, rfl, rfl, rfl, rfl, rfl, rfl, rfl, rfl, hprn, rfl, rfl⟩

end Sys2Proof.Machine
end

section
/-! PROOFS. The family of 20_memory.md: accesses the register window refuses (R61), what reads and block steps leave unchanged
(R51, R57, R63, R69), and the canonical form of host memory (R50, R54). -/

namespace Sys2Proof.Machine

/-- Settles O34: each access tests its width and its alignment before anything else. -/
theorem oddAccessesRefused : Obligations.OddAccessesRefused := by
  intro s bytes off m v rest hodd
  have hill : HostAccess.wellFormed bytes off = false := by
    rw [HostAccess.wellFormed, Bool.and_eq_false_iff, beq_eq_false_iff_ne, beq_eq_false_iff_ne]
    exact hodd
  refine ⟨fun h => ?_, fun h => ?_, fun hb h => ?_⟩
  · simp [step_input h, inputStep, hostRead, hill]
  · simp [step_input h, inputStep, hostWrite, hill]
  · subst hb
    simp [step_input h, inputStep, hostPoll, hill]

/-- Settles O39: a read takes at most a free value, and its record is all it leaves. -/
theorem readsHaveNoSideEffect : Obligations.ReadsHaveNoSideEffect := by
  intro s off rest ha hin
  obtain ⟨n, hn⟩ := regRead_state off { s with inputs := rest }
  refine ⟨n, (regRead off { s with inputs := rest }).1, ?_⟩
  rw [step_read hin ha]
  simp only [recordRead, hn]

/-- Settles O19: with nothing queued a step is a move of the block, and every move has its frame. -/
theorem blockStepFrame : Obligations.BlockStepFrame := by
  intro s t hin hstep
  have hframe : BlockFrame s t := (blockStep_move (step_block hin ▸ hstep)).frame
  exact ⟨hframe, fun a => congrArg (fun u => Memory.read u.mem a) hframe⟩

/-- Host memory and both pattern memories are as before. -/
def SameMemories (s t : State) : Prop := t.mem = s.mem ∧ t.prn0 = s.prn0 ∧ t.prn1 = s.prn1

/-- The block writes no memory (R51, R56). -/
theorem BlockMove.sameMemories {s t : State} (hm : BlockMove s t) : SameMemories s t := by
  have hframe : BlockFrame s t := hm.frame
  rw [hframe]
  exact ⟨rfl, rfl, rfl⟩

/-- Dispatch writes no memory (R34). -/
theorem exec_sameMemories {i : Instr} {s t : State} (h : exec i s = .next t) : SameMemories s t := by
  cases i with
  | fecEnc => obtain ⟨-, rfl⟩ | ⟨-, rfl⟩ | ⟨-, rfl⟩ := exec_cases h <;> exact ⟨rfl, rfl, rfl⟩
  | txByte | txBuf =>
    obtain ⟨hframe, -⟩ := transmitDispatchFrame _ s t (by simp) h
    rw [hframe]
    exact ⟨rfl, rfl, rfl⟩
  | flushIdle | rawTx | rawCont | rawZero | rawEnd =>
    obtain ⟨hframe, -⟩ := streamDispatchFrame _ s t (by simp) h
    rw [hframe]
    exact ⟨rfl, rfl, rfl⟩

/-- Of the moves from outside only the host's write to its own memory changes it (R54). -/
theorem InputMove.mem {s t : State} {x : Input} (hm : InputMove s x t) :
    t.mem = s.mem ∨ ∃ a v, t = hostMemWrite a v s := by
  cases hm with
  | memWrite => exact .inr ⟨_, _, rfl⟩
  | block hb => exact .inl (blockStep_move hb).sameMemories.1
  | dispatch _ he => exact .inl (exec_sameMemories he).1
  | illegal => exact .inl (raiseError_mem _ _)
  | @prn _ w sel i =>
    obtain ⟨-, e⟩ | ⟨-, p, q, e⟩ := prnWrite_cases sel i w s <;> exact .inl (e ▸ rfl)
  | txInit => exact .inl (hostTxInit_mem s)
  | read | poll | clear | argument | reset | init => exact .inl rfl

/-- Settles O45: a step writes host memory only in the host's own write, which keeps the form. -/
theorem stepKeepsMemoryForm : Obligations.StepKeepsMemoryForm := by
  intro s t h hstep
  obtain ⟨-, hm⟩ | ⟨x, rest, -, hm⟩ := step_move hstep
  · obtain ⟨hmem, -⟩ := hm.sameMemories
    exact hmem ▸ h
  · obtain hmem | ⟨a, v, rfl⟩ := hm.mem
    · exact hmem ▸ h
    · exact Memory.wf_hostMemWrite (s := { s with inputs := rest }) h a v

end Sys2Proof.Machine
end

section
/-! PROOFS. The race record and the operation in progress, step by step (20_memory.md R54), and the machine whose host keeps its
duties (60_exceptions.md R196). -/

namespace Sys2Proof.Machine

/-- The operation in progress and its race record stay, or the operation is over and both are cleared (R35, R54). -/
def OperationStaysOrEnds (s t : State) : Prop := (t.op = s.op ∧ t.stale = s.stale) ∨ (t.op = none ∧ t.stale = [])

theorem OperationStaysOrEnds.stale {s t : State} (h : OperationStaysOrEnds s t) (hs : s.stale = []) : t.stale = [] := by
  obtain ⟨-, ht⟩ | ⟨-, ht⟩ := h
  · exact ht.trans hs
  · exact ht

/-- An operation that sends symbols was in progress before. -/
theorem OperationStaysOrEnds.inSymbol {s t : State} (h : OperationStaysOrEnds s t) (ht : t.inSymbol = true) :
    s.inSymbol = true := by
  obtain ⟨ho, -⟩ | ⟨ho, -⟩ := h
  · rwa [State.inSymbol, ho] at ht
  · rw [State.inSymbol, ho] at ht
    cases ht

theorem operationStaysOrEnds_refillDone (s : State) : OperationStaysOrEnds s (refillDone s) := by
  unfold refillDone nextChip
  split
  · split <;> exact .inl ⟨rfl, rfl⟩
  · exact .inr ⟨rfl, rfl⟩

theorem operationStaysOrEnds_refillTest (s : State) : OperationStaysOrEnds s (refillTest s) := by
  unfold refillTest
  split
  · exact operationStaysOrEnds_refillDone s
  · exact .inl ⟨rfl, rfl⟩

theorem operationStaysOrEnds_afterStrobe (p : Phase) (b : Byte) (s : State) :
    OperationStaysOrEnds s (afterStrobe p b s) := by
  cases p with
  | flushPoll =>
    simp only [afterStrobe, afterFlushPoll]
    split
    · split
      · exact .inr ⟨rfl, rfl⟩
      · exact .inl ⟨rfl, rfl⟩
    · exact .inl ⟨rfl, rfl⟩
  | start =>
    simp only [afterStrobe, afterStart]
    split
    · exact operationStaysOrEnds_refillDone s
    · exact .inl ⟨rfl, rfl⟩
  | settlePoll =>
    simp only [afterStrobe, afterSettlePoll]
    split
    · exact operationStaysOrEnds_refillTest { s with src := s.src, rem := _ }
    · exact .inl ⟨rfl, rfl⟩
  | endPoll =>
    simp only [afterStrobe, afterEndPoll]
    split <;> exact .inl ⟨rfl, rfl⟩
  | endIdle =>
    simp only [afterStrobe, afterEndIdle]
    split
    · exact .inl ⟨rfl, rfl⟩
    · exact .inr ⟨rfl, rfl⟩
  | _ => exact .inl ⟨rfl, rfl⟩

theorem operationStaysOrEnds_afterBurst (p : Phase) (s : State) : OperationStaysOrEnds s (afterBurst p s) := by
  unfold afterBurst
  split
  · exact .inl ⟨rfl, rfl⟩
  · exact operationStaysOrEnds_refillTest s

theorem BlockMove.operationStaysOrEnds {s t : State} (hm : BlockMove s t) : OperationStaysOrEnds s t := by
  cases hm with
  | answer => exact operationStaysOrEnds_afterStrobe _ _ _
  | close => exact operationStaysOrEnds_afterBurst _ _
  | byte _ _ ht =>
    obtain ⟨n, src, rfl⟩ := takeByte_ok ht
    exact .inl ⟨rfl, rfl⟩
  | _ => exact .inl ⟨rfl, rfl⟩

/-- An operation that starts is the one in progress, unless its start completes it (log 18, log 29). -/
theorem operationStaysOrEnds_startOf {i : Instr} (s : State) (hi : i ≠ .fecEnc) :
    OperationStaysOrEnds { s with op := some i } (startOf i s) := by
  cases i with
  | fecEnc => exact absurd rfl hi
  | rawCont => exact operationStaysOrEnds_refillTest { beginOp .rawCont s with chip := 0, symidx := 0, src := _, rem := _ }
  | rawZero => exact operationStaysOrEnds_refillTest { beginOp .rawZero s with chip := 0, symidx := 0, src := _, rem := _ }
  | txBuf =>
    rw [startOf, startTxBuf]
    split
    · exact .inr ⟨rfl, rfl⟩
    · exact .inl ⟨rfl, rfl⟩
  | flushIdle | rawTx | rawEnd | txByte => exact .inl ⟨rfl, rfl⟩

/-- Dispatch starts an operation while idle, or leaves the one in progress alone (R34). -/
theorem exec_operation {i : Instr} {s t : State} (h : exec i s = .next t) :
    OperationStaysOrEnds s t ∨ (s.busy = false ∧ OperationStaysOrEnds { s with op := some i } t) := by
  obtain ⟨-, rfl⟩ | ⟨-, rfl⟩ | ⟨hb, rfl⟩ := exec_cases h
  · exact .inl (.inl ⟨rfl, rfl⟩)
  · exact .inl (.inl ⟨rfl, rfl⟩)
  · by_cases hi : i = .fecEnc
    · subst hi
      exact .inl (.inl ⟨rfl, rfl⟩)
    · exact .inr ⟨hb, operationStaysOrEnds_startOf (latchOperands s) hi⟩

/-- From outside the block an operation is only started, by a CMD write while idle, or raced, by a write into its buffer. -/
theorem InputMove.operation {s t : State} {x : Input} (hm : InputMove s x t) :
    OperationStaysOrEnds s t ∨
    (∃ w i, x = .write 4 0 w ∧ decode w = .ok i ∧ s.busy = false ∧ OperationStaysOrEnds { s with op := some i } t) ∨
    ∃ a v, x = .memWrite a v ∧ inBuffer s a.toNat = true ∧ t.op = s.op := by
  cases hm with
  | block hb => exact .inl (blockStep_move hb).operationStaysOrEnds
  | dispatch hd he =>
    obtain h | ⟨hb, h⟩ := exec_operation he
    · exact .inl h
    · exact .inr (.inl ⟨_, _, rfl, hd, hb, h⟩)
  | @memWrite a v =>
    by_cases hbuf : inBuffer s a.toNat = true
    · exact .inr (.inr ⟨a, v, rfl, hbuf, rfl⟩)
    · exact .inl (.inl ⟨rfl, if_neg hbuf⟩)
  | reset => exact .inl (.inr ⟨rfl, rfl⟩)
  | illegal => exact .inl (.inl ⟨raiseError_op _ _, raiseError_stale _ _⟩)
  | @prn _ w sel i =>
    obtain ⟨-, e⟩ | ⟨-, p, q, e⟩ := prnWrite_cases sel i w s <;> exact .inl (.inl (e ▸ ⟨rfl, rfl⟩))
  | txInit => exact .inl (.inl ⟨hostTxInit_op s, hostTxInit_stale s⟩)
  | read | poll | clear | argument | init => exact .inl (.inl ⟨rfl, rfl⟩)

/-! The host keeps its duties. -/

/-- A step of the machine whose host keeps its duties is one of the machine, and the move it makes keeps them (R196). -/
theorem dutifulStep_some {s : State} {o : Host.Outcome State Fault Refusal} (h : dutifulStep s = some o) :
    step s = o ∧ ∀ x rest, s.inputs = x :: rest → keepsDuties s x = true := by
  cases hin : s.inputs with
  | nil =>
    rw [dutifulStep_block hin] at h
    exact ⟨Option.some.inj h, nofun⟩
  | cons x rest =>
    rw [dutifulStep_input hin] at h
    split at h
    · rename_i hk
      refine ⟨Option.some.inj h, fun y rest' e => ?_⟩
      cases e
      exact hk
    · cases h

/-- A move against the duties does not exist (R196). -/
theorem dutifulStep_none {s : State} {x : Input} {rest : List Input} (hin : s.inputs = x :: rest)
    (hk : keepsDuties s x = false) : dutifulStep s = none := by
  rw [dutifulStep_input hin, if_neg (ne_true_of_eq_false hk)]

/-- A move that keeps the duties is the machine's. -/
theorem dutifulStep_kept {s : State} {x : Input} {rest : List Input} (hin : s.inputs = x :: rest)
    (hk : keepsDuties s x = true) : dutifulStep s = some (inputStep x { s with inputs := rest }) := by
  rw [dutifulStep_input hin, if_pos hk, step_input hin]

/-- A launch under a host that keeps its duties is a launch of the machine (R196). -/
theorem run_of_dutifulRun {k : Nat} {s : State} {o : Host.Outcome State Fault Refusal} (h : dutifulRun k s = some o) :
    Host.Core.run core k s = o := by
  induction k generalizing s with
  | zero => exact Option.some.inj h
  | succ k ih =>
    simp only [dutifulRun] at h
    simp only [Host.Core.run, core]
    split at h
    · rename_i t ht
      rw [(dutifulStep_some ht).1]
      exact ih h
    · rename_i f hf
      rw [(dutifulStep_some hf).1]
      exact Option.some.inj h
    · rename_i r hr
      rw [(dutifulStep_some hr).1]
      exact Option.some.inj h
    · cases h

/-- A host that keeps its duties causes no race (R54, R196). -/
theorem dutifulStep_stale {s t : State} (hs : s.stale = []) (h : dutifulStep s = some (.next t)) : t.stale = [] := by
  obtain ⟨hstep, hduty⟩ := dutifulStep_some h
  obtain ⟨-, hm⟩ | ⟨x, rest, hin, hm⟩ := step_move hstep
  · exact hm.operationStaysOrEnds.stale hs
  · obtain ho | ⟨w, i, -, -, -, ho⟩ | ⟨a, v, rfl, hbuf, -⟩ := hm.operation
    · exact ho.stale hs
    · exact ho.stale hs
    · have hfree : (!inBuffer s a.toNat) = true := hduty _ _ hin
      rw [show inBuffer s a.toNat = true from hbuf] at hfree
      cases hfree

/-- The first overwrite of a buffer byte leaves the byte before as the one older value (R54). -/
theorem staleBytes_hostMemWrite {s : State} {a : Word} (v : Byte) (hs : s.stale = []) (hbuf : inBuffer s a.toNat = true) :
    staleBytes (hostMemWrite a v s) a.toNat = [Memory.read s.mem a.toNat] := by
  simp [staleBytes, hostMemWrite, hbuf, hs]

/-- Settles O40: the race record holds the one byte overwritten, and a host that keeps its duties never adds to it. -/
theorem racedReadIsOldOrNew : Obligations.RacedReadIsOldOrNew := by
  refine ⟨fun s a v rest hin hbuf => ?_, fun s t => dutifulStep_stale, fun s t h => (dutifulStep_some h).1,
    fun k s o => run_of_dutifulRun, fun s a v rest hin hwf hst hbuf => ?_⟩
  · exact dutifulStep_none hin (by rw [keepsDuties, hbuf]; rfl)
  · have hsame : Memory.read (Memory.write s.mem a.toNat v) a.toNat = v := Memory.read_write_same hwf _ _
    refine ⟨hostMemWrite a v { s with inputs := rest }, step_input hin, Memory.wf_hostMemWrite hwf a v, hsame,
      fun c hc => Memory.read_write_other s.mem v hc, fun b u hread => ?_⟩
    obtain ⟨-, -, hnew | hold⟩ := memRead_ok hread
    · exact .inl (hnew.trans hsame)
    · rw [staleBytes_hostMemWrite (s := { s with inputs := rest }) v hst hbuf] at hold
      exact .inr (List.mem_singleton.mp hold)

end Sys2Proof.Machine
end

section
/-! PROOFS. Where the block's reads stop (20_memory.md R50, R57), and why a host that keeps its duties never meets an unwritten
PRN byte (60_exceptions.md R190, R196; 70_reset_and_hazards.md R211, R213). -/

namespace Sys2Proof.Machine

/-! The two faults. -/

/-- A burst whose next byte cannot be read stops with that fault (R190). -/
theorem burstStep_fault {k : State → State} {s : State} {left : Nat} {rest : List Bool} {f : Fault}
    (h : s.burstLeft = left + 1) (hr : s.readies = true :: rest)
    (ht : takeByte { s with issued := true, readies := rest } = .error f) : burstStep k s = .fault f := by
  rw [burstStep, h]
  simp only [drawReady_cons (s := issue s) hr]
  rw [show takeByte { issue s with readies := rest } = .error f from ht]

/-- A burst step stops only where its next byte cannot be read. -/
theorem burstStep_fault_inv {k : State → State} {s : State} {f : Fault} (h : burstStep k s = .fault f) :
    ∃ script n, takeByte { s with issued := true, readies := script, draws := n } = .error f := by
  obtain ⟨script, n, hd⟩ := drawReady_state (issue s)
  refine ⟨script, n, ?_⟩
  unfold burstStep at h
  split at h
  · cases h
  split at h
  · cases h
  rename_i s1 hready
  obtain rfl : s1 = { s with issued := true, readies := script, draws := n } := by rwa [hready] at hd
  split at h
  · cases h
  · cases h
    assumption

theorem takeByte_unwritten {s : State} {sel : Bool} {i : Nat} (hsrc : s.src = .prn sel i)
    (hb : (s.prn sel)[i]? = some none) : takeByte s = .error (.unwrittenPrn sel i) := by
  simp only [takeByte, hsrc, prnRead, hb]

theorem memRead_unadmitted {s : State} {a : Nat} (ha : admitted s.params a = false) :
    memRead s a = .error (.hostReadUnadmitted a) := if_neg (ne_true_of_eq_false ha)

theorem takeByte_unadmitted {s : State} {p : Nat} (hsrc : s.src = .host p) (ha : admitted s.params p = false) :
    takeByte s = .error (.hostReadUnadmitted p) := by
  simp only [takeByte, hsrc, memRead_unadmitted ha]

/-- A read of host memory has one fault. -/
theorem memRead_error {s : State} {a : Nat} {f : Fault} (h : memRead s a = .error f) : f = .hostReadUnadmitted a := by
  unfold memRead at h
  split at h
  · split at h <;> cases h
  · cases h
    rfl

/-- Only an unwritten byte of the pattern the source stands in gives the fault UNWRITTEN_PRN (R57). -/
theorem takeByte_unwritten_inv {s : State} {sel : Bool} {i : Nat} (h : takeByte s = .error (.unwrittenPrn sel i)) :
    s.src = .prn sel i ∧ (s.prn sel)[i]? = some none := by
  unfold takeByte at h
  split at h
  · split at h
    · cases h
    · rename_i hread
      cases h
      cases memRead_error hread
  · rename_i hsrc
    split at h
    · cases h
    · rename_i hread
      cases h
      unfold prnRead at hread
      split at hread <;> cases hread
      exact ⟨hsrc, by assumption⟩
  · cases h

/-- The block meets UNWRITTEN_PRN only in a burst whose source stands at an unwritten byte (R57, R190). -/
theorem blockStep_unwritten {s : State} {sel : Bool} {i : Nat} (h : blockStep s = .fault (.unwrittenPrn sel i)) :
    s.phase.bursting = true ∧ s.src = .prn sel i ∧ (s.prn sel)[i]? = some none := by
  obtain hp | hp | ⟨c, hp⟩ | hp | ⟨kind, hp⟩ := s.phase.kinds
  · rw [blockStep_idle hp] at h
    cases h
  · rw [blockStep_fetch hp, symFetchStep] at h
    split at h
    · cases h
    · rename_i hread
      cases h
      cases memRead_error hread
  · obtain ⟨t, ht⟩ := strobeStep_total c (afterStrobe s.phase) s
    rw [blockStep_strobe hp, ht] at h
    cases h
  · rw [blockStep_burst hp] at h
    obtain ⟨script, n, hread⟩ := burstStep_fault_inv h
    exact ⟨hp, takeByte_unwritten_inv (s := { s with issued := true, readies := script, draws := n }) hread⟩
  · rw [blockStep_wait hp, waitStep] at h
    split at h <;> cases h

/-- A register write never stops (R76, R182). -/
theorem regWrite_next (off : Nat) (w : Word) (s : State) : ∃ t, regWrite off w s = .next t := by
  unfold regWrite
  split
  · exact ⟨_, rfl⟩
  split
  · unfold cmdWrite
    split
    · exact exec_next _ _
    · exact ⟨_, rfl⟩
  repeat' split
  all_goals exact ⟨_, rfl⟩

/-- No move from outside the block faults by itself: an entry that faults yields to the block. -/
theorem inputStep_fault {x : Input} {s : State} {f : Fault} (h : inputStep x s = .fault f) : blockStep s = .fault f := by
  cases x with
  | block => exact h
  | read bytes off =>
    simp only [inputStep, hostRead] at h
    split at h <;> cases h
  | write bytes off w =>
    obtain ⟨t, ht⟩ := regWrite_next off w s
    simp only [inputStep, hostWrite, ht] at h
    split at h <;> cases h
  | poll off m v =>
    simp only [inputStep, hostPoll] at h
    repeat' split at h
    all_goals cases h
  | memWrite | reset | init | txInit => cases h

/-! The patterns stay written. -/

/-- Both patterns are written whole: no byte of theirs is unwritten (R57, R213). -/
theorem prnLoaded_iff (s : State) : prnLoaded s = true ↔ ∀ (sel : Bool) (i : Nat), (s.prn sel)[i]? ≠ some none := by
  have loaded (v : Vector (Option Byte) 64) : v.toList.all Option.isSome = true ↔ ∀ i : Nat, v[i]? ≠ some none := by
    rw [List.all_eq_true]
    refine ⟨fun h i hi => ?_, fun h x hx => ?_⟩
    · have hmem : none ∈ v.toList := Vector.mem_toList_iff.mpr (Vector.mem_of_getElem? hi)
      exact absurd (h none hmem) (by decide)
    · obtain ⟨i, hi⟩ := Vector.getElem?_of_mem (Vector.mem_toList_iff.mp hx)
      exact Option.isSome_iff_ne_none.mpr fun hx => h i (hx ▸ hi)
  rw [prnLoaded, Bool.and_eq_true, loaded, loaded, Bool.forall_bool]
  rfl

/-- A PRN write leaves no byte unwritten that was written (R33, R57). -/
theorem prnLoaded_prnWrite {s : State} (sel : Bool) (i : Nat) (w : Word) (h : prnLoaded s = true) :
    prnLoaded (prnWrite sel i w s) = true := by
  obtain ⟨-, e⟩ | ⟨hb, -⟩ := prnWrite_cases sel i w s
  · exact e ▸ h
  · obtain ⟨hsame, hother⟩ := prnWrite_prn sel i w hb
    rw [prnLoaded_iff] at h ⊢
    intro sel' j hj
    obtain rfl | rfl := Bool.eq_or_eq_not sel' sel
    · rw [hsame, Vector.getElem?_setIfInBounds] at hj
      split at hj
      · split at hj <;> cases hj
      · exact h _ _ hj
    · exact h _ _ (hother ▸ hj)

theorem SameMemories.patternsStay {s t : State} (h : SameMemories s t) (hs : prnLoaded s = true) : prnLoaded t = true := by
  obtain ⟨-, h0, h1⟩ := h
  rwa [prnLoaded, h0, h1]

/-- Patterns that are written stay so, but for block reset, which leaves no operation in progress (R57). -/
theorem InputMove.patternsStay {s t : State} {x : Input} (hm : InputMove s x t) (hs : prnLoaded s = true) :
    t.inSymbol = false ∨ prnLoaded t = true := by
  cases hm with
  | reset => exact .inl rfl
  | block hb => exact .inr ((blockStep_move hb).sameMemories.patternsStay hs)
  | dispatch _ he => exact .inr ((exec_sameMemories he).patternsStay hs)
  | prn => exact .inr (prnLoaded_prnWrite _ _ _ hs)
  | @illegal _ e => cases e <;> exact .inr hs
  | txInit =>
    obtain ⟨r, e⟩ := hostTxInit_state s
    exact .inr (e ▸ hs)
  | read | poll | clear | argument | memWrite | init => exact .inr hs

/-- An operation that sends symbols is dispatched only where both patterns are written (R213). -/
theorem prnLoaded_of_mayDispatch {s : State} {i : Instr} (h : mayDispatch s i = true) (hi : sendsSymbols i = true) :
    prnLoaded s = true := by
  cases i <;> cases hi <;> simp only [mayDispatch, Bool.and_eq_true] at h <;> exact h.2

/-- A CMD write by a host that keeps its duties dispatches only what it may (R196). -/
theorem keepsDuties_command {s : State} {w : Word} {i : Instr} (hd : decode w = .ok i) :
    keepsDuties s (.write 4 0 w) = (s.busy || mayDispatch s i) := by
  simp [keepsDuties, mayCommand, hd]

/-- While a symbol is sent both patterns stay written, if the host keeps its duties (R213). -/
theorem dutifulStep_prnLoaded {s t : State} (hs : s.inSymbol = true → prnLoaded s = true)
    (h : dutifulStep s = some (.next t)) (ht : t.inSymbol = true) : prnLoaded t = true := by
  obtain ⟨hstep, hduty⟩ := dutifulStep_some h
  obtain ⟨-, hm⟩ | ⟨x, rest, hin, hm⟩ := step_move hstep
  · exact hm.sameMemories.patternsStay (hs (hm.operationStaysOrEnds.inSymbol ht))
  · have hloaded : prnLoaded s = true := by
      obtain ho | ⟨w, i, rfl, hd, hb, ho⟩ | ⟨a, v, -, -, ho⟩ := hm.operation
      · exact hs (ho.inSymbol ht)
      · have hmay := hduty _ _ hin
        rw [keepsDuties_command hd, show s.busy = false from hb] at hmay
        exact prnLoaded_of_mayDispatch hmay (ho.inSymbol ht)
      · exact hs (by rwa [State.inSymbol, ho] at ht)
    obtain hno | hyes := hm.patternsStay hloaded
    · rw [hno] at ht
      cases ht
    · exact hyes

/-- A burst takes its bytes from a pattern only while a symbol is sent (R115 to R117, R164). -/
theorem Inv.inSymbol_of_prn {s : State} {sel : Bool} {i : Nat} (h : Inv s) (hp : s.phase.bursting = true)
    (hsrc : s.src = .prn sel i) : s.inSymbol = true := by
  obtain ⟨hseq, -, hsource, -, -⟩ := h
  obtain ⟨op, ho, -, hphase⟩ := hseq.running (by rintro e; rw [e] at hp; cases hp)
  rw [inSymbol_of_op ho]
  cases op with
  | txByte | txBuf => rfl
  | fecEnc => cases hphase
  | flushIdle | rawEnd => obtain e | e := s.phase.bursting_iff.mp hp <;> rw [e] at hphase <;> cases hphase
  | rawTx | rawCont =>
    simp only [SourceInv, ho] at hsource
    obtain ⟨-, -, p, hhost, -⟩ := hsource
    rw [hsrc] at hhost
    cases hhost
  | rawZero =>
    simp only [SourceInv, ho] at hsource
    rw [hsrc] at hsource
    cases hsource.2

/-- Where both patterns are written while a symbol is sent, the block never meets an unwritten byte (R57, R190). -/
theorem blockStep_ne_unwritten {s : State} {sel : Bool} {i : Nat} (h : Inv s)
    (hs : s.inSymbol = true → prnLoaded s = true) : blockStep s ≠ .fault (.unwrittenPrn sel i) := by
  intro hf
  obtain ⟨hp, hsrc, hnone⟩ := blockStep_unwritten hf
  exact (prnLoaded_iff s).mp (hs (h.inSymbol_of_prn hp hsrc)) sel i hnone

theorem step_ne_unwritten {s : State} {sel : Bool} {i : Nat} (h : Inv s)
    (hs : s.inSymbol = true → prnLoaded s = true) : step s ≠ .fault (.unwrittenPrn sel i) := by
  intro hf
  cases hin : s.inputs with
  | nil => exact blockStep_ne_unwritten h hs (step_block hin ▸ hf)
  | cons x rest => exact blockStep_ne_unwritten (s := { s with inputs := rest }) h hs (inputStep_fault (step_input hin ▸ hf))

/-! The host's preparations (R211, R213). -/

/-- Before `init()` FEC_ENC alone may be dispatched (R213). -/
theorem mayDispatch_before_init {s : State} {i : Instr} (h : s.host.initDone = false) (hi : i ≠ .fecEnc) :
    mayDispatch s i = false := by
  cases i with
  | fecEnc => exact absurd rfl hi
  | _ => simp [mayDispatch, h]

/-- With no transmission in progress and `txInit()` asked for, nothing that transmits may be dispatched (R196, R211). -/
theorem mayDispatch_before_txInit {s : State} {i : Instr} (h : s.host.txInitDone = false) (ht : transmitting s = false)
    (hi : i = .rawTx ∨ i = .rawCont ∨ i = .rawZero ∨ i = .rawEnd ∨ i = .txByte ∨ i = .txBuf) : mayDispatch s i = false := by
  obtain rfl | rfl | rfl | rfl | rfl | rfl := hi <;> simp [mayDispatch, h, ht]

/-- `txInit()` while idle, after `init()`, ends any transmission and allows RAW_TX (R196, R211, R213). -/
theorem hostTxInit_prepares {s : State} (hb : s.busy = false) (hinit : s.host.initDone = true) :
    (hostTxInit s).host.initDone = true ∧ (hostTxInit s).host.txInitDone = true ∧
      transmitting (hostTxInit s) = false ∧ mayDispatch (hostTxInit s) .rawTx = true := by
  have e := hostTxInit_while_idle hb
  have hi : (hostTxInit s).host.initDone = true := by rw [e]; exact hinit
  have htx : (hostTxInit s).host.txInitDone = true := by rw [e]; exact hinit
  have hover : transmitting (hostTxInit s) = false := by rw [e]; exact transmitting_fresh (Nat.le_refl _)
  exact ⟨hi, htx, hover, by rw [mayDispatch, hi, htx, hover]; rfl⟩

/-- Block reset of an idle block leaves the history and the host's record as they are (R210, R211). -/
theorem blockReset_idle {s : State} (h : Inv s) (hb : s.busy = false) :
    (blockReset s).host = s.host ∧ transmitting (blockReset s) = transmitting s := by
  obtain ⟨-, -, -, -, -, hissued⟩ := idle_of_inv h hb
  have hhost : (blockReset s).host = s.host := if_neg (ne_true_of_eq_false hb)
  have hcut : cutHistory s = s.history := by simp [cutHistory, State.inFlight, hissued]
  refine ⟨hhost, ?_⟩
  rw [transmitting, blockReset_history, hcut, hhost]
  rfl

/-- Settles O33: the stops are those of `memRead` and `prnRead`; under Inv only a symbol reads a pattern, which a host that keeps
its duties has written; the preparations are read off the host's record. -/
theorem blockReadsThatStop : Obligations.BlockReadsThatStop := by
  refine ⟨fun s left i sel rest hin hp hl hr hsrc hb => ?_, fun s left p rest hin hp hl hr hsrc ha => ?_,
    fun s hin hp ha => ?_, fun s w i rest hin hb hd hmay => ?_, fun s t => dutifulStep_prnLoaded,
    fun s sel i h hs hf => step_ne_unwritten h hs (dutifulStep_some hf).1,
    fun s w i rest hin hd => ⟨fun hi => ?_, fun hi hb hno => ?_⟩, fun s rest hin => ?_,
    fun s rest hin hno => ?_, fun s rest hin hb hinit => ?_, fun s rest hin hb => ?_, fun s rest h hin hb => ?_⟩
  · rw [step_burst hin hp]
    exact burstStep_fault hl hr (takeByte_unwritten hsrc hb)
  · rw [step_burst hin hp]
    exact burstStep_fault hl hr (takeByte_unadmitted hsrc ha)
  · rw [step_block hin, blockStep_fetch hp, symFetchStep, memRead_unadmitted ha]
  · exact dutifulStep_none hin (by rw [keepsDuties_command hd, hb, hmay]; rfl)
  · subst hi
    rw [dutifulStep_kept hin (by rw [keepsDuties_command hd, mayDispatch, Bool.or_true]), step_input hin]
  · exact dutifulStep_none hin (by rw [keepsDuties_command hd, hb, mayDispatch_before_init hno hi]; rfl)
  · exact dutifulStep_kept hin rfl
  · refine dutifulStep_none hin ?_
    obtain hb | hinit := hno
    · simp [keepsDuties, hb]
    · simp [keepsDuties, hinit]
  · obtain ⟨hi, htx, hover, hmay⟩ := hostTxInit_prepares (s := { s with inputs := rest }) hb hinit
    obtain ⟨r, e⟩ := hostTxInit_state { s with inputs := rest }
    exact ⟨hostTxInit { s with inputs := rest }, dutifulStep_kept hin (by rw [keepsDuties, hinit, hb]; rfl), e ▸ rfl, hi, htx,
      hover, hmay⟩
  · obtain ⟨htx, hover⟩ := blockReset_cut (s := { s with inputs := rest }) hb
    exact ⟨blockReset { s with inputs := rest }, dutifulStep_kept hin rfl, fun i => mayDispatch_before_txInit htx hover⟩
  · exact ⟨blockReset { s with inputs := rest }, dutifulStep_kept hin rfl,
      blockReset_idle (s := { s with inputs := rest }) h hb⟩

end Sys2Proof.Machine
end

section
/-! PROOFS. The decoder of CMD words (30_encoding.md R70, R71, R74, R75, R77): OPC alone decides, and each opcode of the map names
its operation. -/

namespace Sys2Proof.Machine

/-- The map leads from the opcode of an operation back to the operation (R71). -/
theorem decodeOpcode_opcode (i : Instr) : decodeOpcode i.opcode = .ok i := by
  cases i <;> rfl

/-- An opcode names an operation or is refused by name (R74). -/
theorem decodeOpcode_total (opc : Byte) :
    (∃ i, decodeOpcode opc = .ok i) ∨ decodeOpcode opc = .error (.illegalOpcode opc) := by
  unfold decodeOpcode
  split
  · exact .inl ⟨_, rfl⟩
  · exact .inr rfl

/-- A word decodes to an operation exactly when OPC is its opcode (R71, R77). -/
theorem decode_eq_ok_iff (w : Word) (i : Instr) : decode w = .ok i ↔ opcodeOf w = i.opcode := by
  refine ⟨opcodeOf_of_decode, fun h => ?_⟩
  rw [decode, h, decodeOpcode_opcode]

/-- The encoder puts the opcode into OPC, whatever stands in the ignored bits (R70). -/
theorem opcodeOf_encode (hi : BitVec 24) (i : Instr) : opcodeOf (encode hi i) = i.opcode :=
  (Laws.EncodedFields.append_fields hi i.opcode).1

theorem opcodeOf_toNat (w : Word) : (opcodeOf w).toNat = w.toNat % 256 := by simp [opcodeOf]

/-- Masking with 0xFF leaves OPC and clears the ignored bits (R75). -/
theorem and_lowByte (w : Word) : w &&& 0xFF#32 = (opcodeOf w).setWidth 32 := by
  have hmask : w.toNat &&& 255 = w.toNat % 256 := Nat.and_two_pow_sub_one_eq_mod w.toNat 8
  have hmod : w.toNat % 256 % 2 ^ 32 = w.toNat % 256 := by omega
  apply BitVec.eq_of_toNat_eq
  rw [BitVec.toNat_setWidth, opcodeOf_toNat, hmod]
  exact hmask

/-- A byte alone in a word is the word's OPC (R70). -/
theorem opcodeOf_setWidth (b : Byte) : opcodeOf (b.setWidth 32) = b := by
  apply BitVec.eq_of_toNat_eq
  rw [opcodeOf_toNat, BitVec.toNat_setWidth]
  omega

/-- Settles O1: the encoder puts the opcode into OPC, and the map leads back from it. -/
theorem decodeInvertsEncode : Obligations.DecodeInvertsEncode := by
  intro i hi
  exact (decode_eq_ok_iff _ i).mpr (opcodeOf_encode hi i)

/-- Settles O2: the masked word is OPC, and where OPC names no operation the refusal names it. -/
theorem decodeByOpcodeAlone : Obligations.DecodeByOpcodeAlone := by
  refine ⟨fun w i => ?_, fun w => ⟨fun hno => ?_, fun hill i hok => ?_⟩⟩
  · rw [decode_eq_ok_iff, and_lowByte]
    refine ⟨fun h => by rw [h], fun h => ?_⟩
    have hopc := congrArg opcodeOf h
    rwa [opcodeOf_setWidth, opcodeOf_setWidth] at hopc
  · obtain ⟨i, hok⟩ | hill := decodeOpcode_total (opcodeOf w)
    · exact absurd hok (hno i)
    · exact hill
  · rw [hill] at hok
    cases hok

/-- Settles O3: a CMD write reads its word through OPC alone, which the mask keeps. -/
theorem ignoredBitsDispatchAlike : Obligations.IgnoredBitsDispatchAlike := by
  intro w s
  have hopc : opcodeOf (w &&& 0xFF#32) = opcodeOf w := by rw [and_lowByte, opcodeOf_setWidth]
  rw [cmdWrite, cmdWrite, decode, decode, hopc]

/-- Settles O4: the words are encoded operations, and OPC 0x00 is not in the map. -/
theorem writtenWordsDecode : Obligations.WrittenWordsDecode :=
  ⟨decodeInvertsEncode .fecEnc 0, decodeInvertsEncode .fecEnc 0xFFFFFF, decodeInvertsEncode .flushIdle 0,
    decodeInvertsEncode .rawTx 0, decodeInvertsEncode .rawCont 0, decodeInvertsEncode .rawZero 0,
    decodeInvertsEncode .rawEnd 0, decodeInvertsEncode .txByte 0, decodeInvertsEncode .txBuf 0, rfl⟩

end Sys2Proof.Machine
end

section
/-! PROOFS. The port history, step by step (40_port.md R92, R94, R105; 70_reset_and_hazards.md R210): what is over stays, and the
event in progress stays or is over with the step. -/

namespace Sys2Proof.Machine

/-! The event in progress, by the kind of phase (R36, R39). -/

theorem openEvent_wait {s : State} {kind : WaitKind} (hp : s.phase.waitKind = some kind) : s.openEvent = [.wait kind] := by
  simp [State.openEvent, hp]

theorem openEvent_of_history {s : State} {es : List PortEvent} (h : s.history = s.past ++ es) : s.openEvent = es :=
  List.append_cancel_left h

theorem openEvent_eq_nil {s : State} (h : s.history = s.past) : s.openEvent = [] := List.append_right_eq_self.mp h

theorem openEvent_strobe {s : State} {c : RadioCommand} (hp : s.phase.command = some c) :
    s.openEvent = if s.issued then [.strobe (s.params.strobeCode.code c) none] else [] := by
  have hw : s.phase.waitKind = none := by cases h : s.phase <;> rw [h] at hp <;> cases hp <;> rfl
  cases hi : s.issued with
  | false => exact openEvent_eq_nil (history_unissued hw hi)
  | true => exact openEvent_of_history (history_strobe hp hi)

theorem openEvent_burst {s : State} (hp : s.phase.bursting = true) :
    s.openEvent = if s.issued then [.burst s.burstSent] else [] := by
  have hw : s.phase.waitKind = none := by obtain h | h := s.phase.bursting_iff.mp hp <;> rw [h] <;> rfl
  cases hi : s.issued with
  | false => exact openEvent_eq_nil (history_unissued hw hi)
  | true => exact openEvent_of_history (history_burst hp hi)

theorem openEvent_idle {s : State} (hp : s.phase = .idle) : s.openEvent = [] := openEvent_eq_nil (history_idle hp)

theorem openEvent_fetch {s : State} (hp : s.phase = .symFetch) : s.openEvent = [] := by
  simp [State.openEvent, State.inFlight, Phase.waitKind, Phase.command, hp]

/-- Where at most `x` is in progress, the event in progress is `x`. -/
theorem eq_of_openIf {x e : PortEvent} {issued : Bool} (h : (if issued then [x] else []) = [e]) : e = x := by
  cases issued <;> cases h
  rfl

/-- A strobe of a phase carries one of the four commands (R78). -/
theorem sentCommand_command (p : Params) {q : Phase} {c : RadioCommand} (h : q.command = some c) (b : Option Byte) :
    PortEvent.sentCommand p (.strobe (p.strobeCode.code c) b) = true := by
  cases q <;> cases h <;> simp [PortEvent.sentCommand, StrobeCodes.code]

theorem openEvent_sentCommand (s : State) : s.openEvent.all (PortEvent.sentCommand s.params) = true := by
  obtain hp | hp | ⟨c, hp⟩ | hp | ⟨kind, hp⟩ := s.phase.kinds
  · rw [openEvent_idle hp]; rfl
  · rw [openEvent_fetch hp]; rfl
  · rw [openEvent_strobe hp]
    split
    · simpa using sentCommand_command s.params hp none
    · rfl
  · rw [openEvent_burst hp]
    split <;> rfl
  · rw [openEvent_wait hp]; rfl

theorem PortEvent.becomes_refl (e : PortEvent) : e.becomes e := by
  cases e with
  | strobe c status =>
    cases status with
    | none => exact ⟨none, rfl⟩
    | some b => rfl
  | burst bs => exact ⟨[], by rw [List.append_nil]⟩
  | wait kind => rfl
  | cut n => rfl

/-! How one state's events go on from another's. -/

/-- The events of `t` go on from those of `s`: the events `done` are over since, and the event then in progress is the first of
those since, or still in progress. -/
def HistoryContinues (s t : State) : Prop :=
  t.params = s.params ∧ ∃ done, t.past = s.past ++ done ∧ done.all (PortEvent.sentCommand s.params) = true ∧
    ∀ e, s.openEvent = [e] → ∃ f later, done ++ t.openEvent = f :: later ∧ e.becomes f

/-- No event is over: the one in progress is still so. -/
theorem historyContinues_of_open {s t : State} (hparams : t.params = s.params) (hpast : t.past = s.past)
    (hopen : ∀ e, s.openEvent = [e] → ∃ f, t.openEvent = [f] ∧ e.becomes f) : HistoryContinues s t := by
  refine ⟨hparams, [], by rw [hpast, List.append_nil], rfl, fun e he => ?_⟩
  obtain ⟨f, hf, hbecomes⟩ := hopen e he
  exact ⟨f, [], hf, hbecomes⟩

/-- One event is over, the one in progress if there was one, and the sequencing has moved on. -/
theorem historyContinues_of_record {s u t : State} {f : PortEvent} (hseq : SequencingFrame u t)
    (hparams : u.params = s.params) (hpast : u.past = s.past ++ [f]) (hsent : f.sentCommand s.params = true)
    (hopen : ∀ e, s.openEvent = [e] → e.becomes f) : HistoryContinues s t :=
  ⟨(congrArg State.params hseq).trans hparams, [f], (congrArg State.past hseq).trans hpast, by simpa using hsent,
    fun e he => ⟨f, t.openEvent, rfl, hopen e he⟩⟩

/-- Nothing that the history is made of has changed. -/
theorem historyContinues_of_same {s t : State} (hparams : t.params = s.params) (hpast : t.past = s.past)
    (hopen : t.openEvent = s.openEvent) : HistoryContinues s t :=
  historyContinues_of_open hparams hpast fun e he => ⟨e, hopen.trans he, e.becomes_refl⟩

/-- Nothing was in progress, and nothing is over. -/
theorem historyContinues_of_quiet {s t : State} (hparams : t.params = s.params) (hpast : t.past = s.past)
    (hquiet : s.openEvent = []) : HistoryContinues s t :=
  historyContinues_of_open hparams hpast fun e he => by rw [hquiet] at he; cases he

/-! The moves of the block. -/

/-- A step of the block holds its event, adds a byte to it, or ends it. -/
theorem BlockMove.historyContinues {s t : State} (hm : BlockMove s t) : HistoryContinues s t := by
  cases hm with
  | idle => exact historyContinues_of_same rfl rfl rfl
  | hold hp =>
    refine historyContinues_of_open rfl rfl fun e he => ?_
    obtain rfl := eq_of_openIf ((openEvent_strobe hp).symm.trans he)
    exact ⟨_, openEvent_strobe hp, none, rfl⟩
  | @answer c b _ _ hp =>
    refine historyContinues_of_record (sequencingFrame_afterStrobe _ _ _) rfl rfl
      (sentCommand_command s.params hp (some b)) fun e he => ?_
    obtain rfl := eq_of_openIf ((openEvent_strobe hp).symm.trans he)
    exact ⟨some b, rfl⟩
  | burstHold hp =>
    refine historyContinues_of_open rfl rfl fun e he => ?_
    obtain rfl := eq_of_openIf ((openEvent_burst hp).symm.trans he)
    exact ⟨_, openEvent_burst hp, PortEvent.becomes_refl _⟩
  | @byte _ _ _ b _ hp _ ht =>
    obtain ⟨m, src, rfl⟩ := takeByte_ok ht
    refine historyContinues_of_open rfl rfl fun e he => ?_
    obtain rfl := eq_of_openIf ((openEvent_burst hp).symm.trans he)
    exact ⟨_, openEvent_burst hp, [b], rfl⟩
  | close hp =>
    refine historyContinues_of_record (sequencingFrame_afterBurst _ _) rfl rfl rfl fun e he => ?_
    obtain rfl := eq_of_openIf ((openEvent_burst hp).symm.trans he)
    exact PortEvent.becomes_refl _
  | tick => exact historyContinues_of_same rfl rfl rfl
  | @waitEnd kind hp =>
    refine historyContinues_of_record (u := record (.wait kind) s) rfl rfl rfl rfl fun e he => ?_
    cases (openEvent_wait hp).symm.trans he
    exact PortEvent.becomes_refl _
  | fetch hp => exact historyContinues_of_quiet rfl rfl (openEvent_fetch hp)

/-! The moves from outside the block. -/

/-- Dispatch changes neither the parameters nor the events that are over (R34, R92). -/
theorem exec_past {i : Instr} {s t : State} (h : exec i s = .next t) : t.params = s.params ∧ t.past = s.past := by
  cases i with
  | fecEnc => obtain ⟨-, rfl⟩ | ⟨-, rfl⟩ | ⟨-, rfl⟩ := exec_cases h <;> exact ⟨rfl, rfl⟩
  | txByte | txBuf =>
    obtain ⟨hframe, -⟩ := transmitDispatchFrame _ s t (by simp) h
    rw [hframe]
    exact ⟨rfl, rfl⟩
  | flushIdle | rawTx | rawCont | rawZero | rawEnd =>
    obtain ⟨hframe, -⟩ := streamDispatchFrame _ s t (by simp) h
    rw [hframe]
    exact ⟨rfl, rfl⟩

/-- An operation starts only where nothing is in progress (R34, R183). -/
theorem exec_historyContinues {i : Instr} {s t : State} (hinv : Inv s) (h : exec i s = .next t) : HistoryContinues s t := by
  obtain hb | hb := Bool.eq_false_or_eq_true s.busy
  · rw [exec_busy i hb] at h
    cases h
    exact historyContinues_of_same rfl rfl rfl
  · obtain ⟨hparams, hpast⟩ := exec_past h
    obtain ⟨-, hp, -⟩ := idle_of_inv hinv hb
    exact historyContinues_of_quiet hparams hpast (openEvent_idle hp)

/-- Block reset leaves the history as it is, or with a transaction in flight cut at some byte of it (R210). -/
theorem cutHistory_cases (s : State) :
    (s.inFlight = none ∧ cutHistory s = s.history) ∨
    ∃ txn n, s.inFlight = some txn ∧ n ≤ txn.size ∧ cutHistory s = s.history ++ [.cut n] := by
  unfold cutHistory
  cases s.inFlight with
  | none => exact .inl ⟨rfl, rfl⟩
  | some txn => exact .inr ⟨txn, _, rfl, Nat.le_of_lt_succ (Nat.mod_lt _ (Nat.succ_pos _)), rfl⟩

/-- Block reset leaves the event in progress in the history, and adds at most a cut (R210). -/
theorem blockReset_historyContinues (s : State) : HistoryContinues s (blockReset s) := by
  obtain ⟨cuts, hcut, hsent⟩ : ∃ cuts, cutHistory s = s.past ++ (s.openEvent ++ cuts) ∧
      cuts.all (PortEvent.sentCommand s.params) = true := by
    obtain ⟨-, hcut⟩ | ⟨-, n, -, -, hcut⟩ := cutHistory_cases s
    · exact ⟨[], by rw [hcut, List.append_nil]; rfl, rfl⟩
    · exact ⟨[.cut n], by rw [hcut, State.history, List.append_assoc], rfl⟩
  refine ⟨rfl, s.openEvent ++ cuts, hcut, ?_, fun e he => ?_⟩
  · rw [List.all_append, openEvent_sentCommand, hsent]; rfl
  · rw [he]
    exact ⟨e, _, rfl, e.becomes_refl⟩

/-- The host's moves leave the history alone, but for an operation it starts; reset may cut a transaction (R92, R210). -/
theorem InputMove.historyContinues {s t : State} {x : Input} (hm : InputMove s x t) (hinv : Inv s) :
    HistoryContinues s t := by
  cases hm with
  | block hb => exact (blockStep_move hb).historyContinues
  | dispatch _ he => exact exec_historyContinues hinv he
  | reset => exact blockReset_historyContinues s
  | @illegal _ e => cases e <;> exact historyContinues_of_same rfl rfl rfl
  | @prn _ w sel i =>
    obtain ⟨-, e⟩ | ⟨-, p, q, e⟩ := prnWrite_cases sel i w s <;> rw [e] <;> exact historyContinues_of_same rfl rfl rfl
  | txInit =>
    obtain ⟨r, e⟩ := hostTxInit_state s
    rw [e]
    exact historyContinues_of_same rfl rfl rfl
  | read | poll | clear | argument | memWrite | init => exact historyContinues_of_same rfl rfl rfl

theorem step_historyContinues {s t : State} (hinv : Inv s) (h : step s = .next t) : HistoryContinues s t := by
  obtain ⟨-, hm⟩ | ⟨x, rest, -, hm⟩ := step_move h
  · exact hm.historyContinues
  · exact hm.historyContinues (s := { s with inputs := rest }) hinv

/-- Settles O48: every step lets the history go on, and block reset cuts at most the transaction in flight. -/
theorem historyGrowsByFourCommands : Obligations.HistoryGrowsByFourCommands := by
  intro s t hinv hstep
  obtain ⟨hparams, done, hpast, hsent, hopen⟩ := step_historyContinues hinv hstep
  refine ⟨hparams, ⟨done, hpast⟩, ⟨done ++ t.openEvent, ?_, ?_, hopen⟩, fun rest txn hin hflight => ?_⟩
  · rw [State.history, hpast, List.append_assoc]
  · rw [List.all_append, hsent, ← hparams, openEvent_sentCommand]; rfl
  · rw [step_input hin] at hstep
    cases hstep
    obtain ⟨hnone, -⟩ | ⟨txn', n, hsome, hn, hcut⟩ := cutHistory_cases { s with inputs := rest }
    · cases hnone.symm.trans hflight
    · cases hsome.symm.trans hflight
      exact ⟨n, hn, (blockReset_history _).trans hcut⟩

end Sys2Proof.Machine
end

section
/-! PROOFS. Bursts and free space (40_port.md R95, R100): no burst of the history is longer than 64 bytes. -/

namespace Sys2Proof.Machine

/-- Settles O31: FREE_MASK is at most 64 for all admissible parameters, and the mask bounds what it lets through. -/
theorem freeSpaceAtMostBurst : Obligations.FreeSpaceAtMostBurst := freeSpace_le

/-- The event in progress is a burst that fits, if it is a burst (R95). -/
theorem Inv.openEvent_burstFits {s : State} (h : Inv s) : s.openEvent.all PortEvent.burstFits = true := by
  obtain hp | hp | ⟨c, hp⟩ | hp | ⟨kind, hp⟩ := s.phase.kinds
  · rw [openEvent_idle hp]; rfl
  · rw [openEvent_fetch hp]; rfl
  · rw [openEvent_strobe hp]
    split <;> rfl
  · obtain ⟨-, hburst, -⟩ := h
    obtain ⟨h64, -⟩ := hburst.inBurst hp
    rw [openEvent_burst hp]
    split
    · simp [PortEvent.burstFits, Config.burstMax, (Nat.le_add_right _ _).trans h64]
    · rfl
  · rw [openEvent_wait hp]; rfl

/-- The event a move of the block ends is a strobe, a wait, or the burst in flight, which fits (R95). -/
theorem BlockMove.past_burstFits {s t : State} (hm : BlockMove s t) (h : Inv s)
    (hs : s.past.all PortEvent.burstFits = true) : t.past.all PortEvent.burstFits = true := by
  have ended {e : PortEvent} (hpast : t.past = s.past ++ [e]) (he : e.burstFits = true) :
      t.past.all PortEvent.burstFits = true := by
    rw [hpast, List.all_append, hs]
    simpa using he
  cases hm with
  | answer => exact ended (congrArg State.past (sequencingFrame_afterStrobe _ _ _)) rfl
  | close hp =>
    obtain ⟨-, hburst, -⟩ := h
    obtain ⟨h64, -⟩ := hburst.inBurst hp
    exact ended (congrArg State.past (sequencingFrame_afterBurst _ _))
      (decide_eq_true ((Nat.le_add_right _ _).trans h64))
  | waitEnd => exact ended rfl rfl
  | byte _ _ ht =>
    obtain ⟨n, src, rfl⟩ := takeByte_ok ht
    exact hs
  | idle | hold | burstHold | tick | fetch => exact hs

/-- From outside the block only reset ends an event: the one in progress, which fits, and at most a cut (R210). -/
theorem InputMove.past_burstFits {s t : State} {x : Input} (hm : InputMove s x t) (h : Inv s)
    (hs : s.history.all PortEvent.burstFits = true) : t.past.all PortEvent.burstFits = true := by
  have hpast : s.past.all PortEvent.burstFits = true := by
    rw [State.history, List.all_append, Bool.and_eq_true] at hs
    exact hs.1
  cases hm with
  | block hb => exact (blockStep_move hb).past_burstFits h hpast
  | dispatch _ he => rw [(exec_past he).2]; exact hpast
  | reset =>
    show (cutHistory s).all _ = true
    obtain ⟨-, e⟩ | ⟨_, n, -, -, e⟩ := cutHistory_cases s
    · rw [e]; exact hs
    · rw [e, List.all_append, hs]; rfl
  | illegal => rw [raiseError_past]; exact hpast
  | @prn _ w sel i =>
    obtain ⟨-, e⟩ | ⟨-, p, q, e⟩ := prnWrite_cases sel i w s <;> exact e ▸ hpast
  | txInit => rw [hostTxInit_past]; exact hpast
  | read | poll | clear | argument | memWrite | init => exact hpast

/-- Settles O46: the events a step ends fit, and under the invariant so does the one then in progress. -/
theorem burstsNeverExceedLimit : Obligations.BurstsNeverExceedLimit := by
  intro s t hinv hs hstep
  have hpast : t.past.all PortEvent.burstFits = true := by
    obtain ⟨-, hm⟩ | ⟨x, rest, -, hm⟩ := step_move hstep
    · rw [State.history, List.all_append, Bool.and_eq_true] at hs
      exact hm.past_burstFits hinv hs.1
    · exact hm.past_burstFits (s := { s with inputs := rest }) hinv hs
  rw [State.history, List.all_append, hpast]
  exact (stepKeepsControllerInvariant s t hinv hstep).openEvent_burstFits

end Sys2Proof.Machine
end

section
/-! PROOFS. The controller moves as its transition table says (41_stream.md R119). -/

namespace Sys2Proof.Machine

theorem refillDone_phase (s : State) :
    (refillDone s).phase =
      if s.inSymbol then (if s.chip.val < 29 then .refillWait else .endPoll) else .idle := by
  have hlast : s.chip.val + 1 < 30 ↔ s.chip.val < 29 := by omega
  unfold refillDone nextChip
  split
  · simp only [hlast]
    split <;> rfl
  · rfl

theorem refillTest_phase (s : State) :
    (refillTest s).phase = if s.rem ≠ 0 then .refillWait else (refillDone s).phase := by
  unfold refillTest
  by_cases hz : s.rem = 0
  · rw [if_pos hz, if_neg (not_not_intro hz)]
  · rw [if_neg hz, if_pos hz]
    rfl

/-- After an answered strobe the phase is the table's (R119). -/
theorem afterStrobe_phase {s : State} {c : RadioCommand} (b : Byte) (left : Half) (h : Inv s)
    (hc : s.phase.command = some c) : (afterStrobe s.phase b s).phase = phaseAfter s b left := by
  cases hp : s.phase with
  | flushCmd | fifoFlush | refillQuery => simp only [phaseAfter, hp]; rfl
  | flushPoll =>
    simp only [phaseAfter, hp, afterStrobe, afterFlushPoll, idleReady, beq_iff_eq]
    split
    · split <;> rfl
    · exact hp
  | start =>
    obtain ⟨-, hchip⟩ := h.progressAt hp
    simp only [phaseAfter, hp, afterStrobe, afterStart]
    split
    · rw [refillDone_phase]
      split
      · rw [hchip ‹_›]; rfl
      · rfl
    · rfl
  | settlePoll =>
    simp only [phaseAfter, hp, afterStrobe, afterSettlePoll, settled, beq_iff_eq, h.refillLoop_after_settle hp]
    split
    · rfl
    · exact hp
  | endPoll =>
    simp only [phaseAfter, hp, afterStrobe, afterEndPoll, endReached, beq_iff_eq]
    split
    · rfl
    · exact hp
  | endIdle =>
    simp only [phaseAfter, hp, afterStrobe, afterEndIdle]
    split <;> rfl
  | idle | load | refillWait | refillWrite | symWait | symFetch => rw [hp] at hc; cases hc

/-- After a closed burst the phase is the table's (R119). -/
theorem afterBurst_phase {s : State} (b : Byte) (hp : s.phase.bursting = true) :
    (afterBurst s.phase (closeBurst s)).phase = phaseAfter s b (s.rem - BitVec.ofNat 16 s.burstSent.length) := by
  obtain e | e := s.phase.bursting_iff.mp hp
  · simp only [phaseAfter, e]; rfl
  · simp only [phaseAfter, e, afterBurst, reduceCtorEq, if_false]
    rw [refillTest_phase, refillDone_phase]
    rfl

/-- Settles O26: a move of the block holds, transfers a byte or lets a unit of a wait pass, or its phase is the table's. -/
theorem controllerFollowsPhaseTable : Obligations.ControllerFollowsPhaseTable := by
  intro s t hinv hin hstep
  cases blockStep_move (step_block hin ▸ hstep) with
  | idle | hold | burstHold | tick => exact .inl ⟨rfl, rfl⟩
  | byte _ _ ht =>
    obtain ⟨n, src, rfl⟩ := takeByte_ok ht
    exact .inl ⟨rfl, rfl⟩
  | @answer c b script n hp =>
    have hstatus := congrArg State.lastRStatus (sequencingFrame_afterStrobe s.phase b
      (answerStrobe c b { s with issued := true, statuses := script, draws := n }))
    rw [hstatus]
    exact .inr (afterStrobe_phase b _ (hinv.answerStrobe hp) hp)
  | close hp => exact .inr (afterBurst_phase _ hp)
  | waitEnd hp =>
    right
    obtain e | e := Phase.of_waitKind hp <;> simp only [phaseAfter, e] <;> rfl
  | fetch hp =>
    right
    simp only [phaseAfter, hp]
    rfl

end Sys2Proof.Machine
end

section
/-! PROOFS. Waits and the free-space query (40_port.md R99, R103; 41_stream.md R112; 43_spreader.md R167, R169). -/

namespace Sys2Proof.Machine

theorem step_wait {s : State} {kind : WaitKind} (hin : s.inputs = []) (hp : s.phase.waitKind = some kind) :
    step s = waitStep kind (afterWait s.phase) s := (step_block hin).trans (blockStep_wait hp)

/-- A wait ends after its interval and one step, and is one event (R103). -/
theorem run_wait {s : State} {kind : WaitKind} (hin : s.inputs = []) (hp : s.phase.waitKind = some kind) :
    Host.Core.run core (s.waitLeft + 1) s = .next (afterWait s.phase (record (.wait kind) { s with waitLeft := 0 })) := by
  have hstep := step_wait hin hp
  induction hn : s.waitLeft generalizing s with
  | zero =>
    rw [waitStep, hn] at hstep
    have hs : { s with waitLeft := 0 } = s := by rw [← hn]
    rw [run_succ hstep, hs]
    rfl
  | succ n ih =>
    rw [waitStep, hn] at hstep
    rw [run_succ hstep]
    exact ih (s := { s with waitLeft := n }) hin hp (step_wait (s := { s with waitLeft := n }) hin hp) rfl

/-- Settles O29: each of the two wait phases stands in the history as its wait, and leads to the phase after it. -/
theorem waitsAlwaysEnd : Obligations.WaitsAlwaysEnd := by
  intro s hin
  have ends {kind : WaitKind} (hp : s.phase.waitKind = some kind) :
      s.history = s.past ++ [.wait kind] ∧
        Host.Core.run core (s.waitLeft + 1) s = .next (afterWait s.phase (record (.wait kind) { s with waitLeft := 0 })) :=
    ⟨by rw [State.history, openEvent_wait hp], run_wait hin hp⟩
  refine ⟨fun hp => ?_, fun hp => ?_⟩
  · have h := ends (kind := .refill) (by rw [hp]; rfl)
    rwa [hp] at h
  · have h := ends (kind := .jitter) (by rw [hp]; rfl)
    rwa [hp] at h

/-- A strobe answered at once: the status is the script's, and the operation goes on with it (R92). -/
theorem step_answered {s : State} {c : RadioCommand} {b : Byte} {rest : List (Option Byte)} (hin : s.inputs = [])
    (hp : s.phase.command = some c) (hst : s.statuses = some b :: rest) :
    step s = .next (afterStrobe s.phase b (answerStrobe c b { s with issued := true, statuses := rest })) :=
  (step_strobe hin hp).trans (strobeStep_cons hst)

/-- Settles O27: the answered NOP of REFILL_QUERY begins the burst. -/
theorem refillQueryChoosesBurst : Obligations.RefillQueryChoosesBurst := by
  intro s b rest hin hp hst
  rw [step_answered (c := .nop) hin (by rw [hp]; rfl) hst, hp]
  rfl

/-- A draw of the jitter stays within its bounds, where they leave a duration to draw (R169). -/
theorem jitterDuration_bounds {s : State} (hd : s.params.debugSpacing = false)
    (hle : s.params.jitterMin ≤ s.params.jitterMax) :
    s.params.jitterMin ≤ jitterDuration s ∧ jitterDuration s ≤ s.params.jitterMax := by
  have hmod : Config.jitterPick s.draws % (s.params.jitterMax - s.params.jitterMin + 1)
      < s.params.jitterMax - s.params.jitterMin + 1 := Nat.mod_lt _ (Nat.succ_pos _)
  rw [jitterDuration, hd, if_neg Bool.false_ne_true, if_pos hle]
  omega

/-- Settles O30: after the last GO_IDLE of a symbol that is not the last, the wait is drawn as the jitter is. -/
theorem jitterWithinBounds : Obligations.JitterWithinBounds := by
  intro s b rest hin hp ho hlt hst
  have hstep := step_answered (c := .goIdle) hin (by rw [hp]; rfl) hst
  rw [hp, afterStrobe, afterEndIdle, if_pos ⟨ho, hlt⟩] at hstep
  refine ⟨_, hstep, rfl, BitVec.toNat_add_of_lt (hlt.trans s.lLen.isLt), fun hd => if_pos hd, fun hd hle => ?_⟩
  exact jitterDuration_bounds hd hle

end Sys2Proof.Machine
end

section
/-! PROOFS. Runs of the block against a script of answers (40_port.md R92, R102): a strobe answered at once, a poll up to the
status it waits for, and the two shared procedures made of them. -/

namespace Sys2Proof.Machine

/-- The machine runs from `s` to `t`. -/
def Reaches (s t : State) : Prop := ∃ k, Host.Core.run core k s = .next t

theorem Reaches.of_step {s t : State} (h : step s = .next t) : Reaches s t := ⟨1, run_succ h 0⟩

theorem Reaches.trans {s t u : State} (h : Reaches s t) (h' : Reaches t u) : Reaches s u := by
  obtain ⟨m, hm⟩ := h
  obtain ⟨n, hn⟩ := h'
  exact ⟨m + n, (run_add hm n).trans hn⟩

/-- A run that comes to a completion is a run to a completed state (R35). -/
theorem Reaches.runsTo {s u : State} (h : Reaches s (complete u)) : runsTo s (complete u) := by
  obtain ⟨k, hk⟩ := h
  exact ⟨k, hk, rfl, rfl, rfl⟩

theorem Reaches.trans_runsTo {s t u : State} (h : Reaches s t) (h' : Machine.runsTo t u) : Machine.runsTo s u := by
  obtain ⟨k, hk, hend⟩ := h'
  obtain ⟨m, hm⟩ := h.trans ⟨k, hk⟩
  exact ⟨m, hm, hend⟩

/-! Strobes and polls. -/

/-- In phase `p`, the events `es` over, the last of them a strobe answered by `b`; `sts` is what is left of the answers. -/
def State.answered (s : State) (p : Phase) (es : List PortEvent) (b : Byte) (sts : List (Option Byte)) : State :=
  { s with phase := p, past := s.past ++ es, lastRStatus := b, statuses := sts, issued := false }

theorem State.answered_answered (s : State) (p q : Phase) (es fs : List PortEvent) (a b : Byte)
    (sts sts' : List (Option Byte)) :
    (s.answered p es a sts).answered q fs b sts' = s.answered q (es ++ fs) b sts' := by
  simp only [answered, List.append_assoc]

/-- A strobe answered at once is one event (R92). -/
theorem reaches_strobe {s : State} {p : Phase} {c : RadioCommand} {b : Byte} {sts : List (Option Byte)}
    (hin : s.inputs = []) (hp : s.phase = p) (hc : p.command = some c) (hst : s.statuses = some b :: sts) :
    Reaches s (afterStrobe p b (s.answered p [.strobe (s.params.strobeCode.code c) (some b)] b sts)) := by
  subst hp
  exact .of_step (step_answered hin hc hst)

/-- The NOPs of a poll, one for each status (R105). -/
def nops (s : State) (bs : List Byte) : List PortEvent := bs.map fun b => .strobe s.params.strobeCode.nop (some b)

/-- A poll goes on for the statuses `bs`, and makes a NOP for each of them and for the next (R111, R118). -/
theorem reaches_poll {s : State} {p : Phase} {b : Byte} {bs : List Byte} {sts : List (Option Byte)} (hin : s.inputs = [])
    (hp : s.phase = p) (hc : p.command = some .nop) (hst : s.statuses = bs.map some ++ some b :: sts)
    (hpoll : ∀ a ∈ bs, ∀ u : State, u.params = s.params → afterStrobe p a u = u) :
    Reaches s (afterStrobe p b (s.answered p (nops s (bs ++ [b])) b sts)) := by
  induction bs generalizing s with
  | nil => exact reaches_strobe hin hp hc hst
  | cons a bs ih =>
    have hfirst := reaches_strobe hin hp hc hst
    rw [hpoll a List.mem_cons_self (s.answered _ _ _ _) rfl] at hfirst
    refine hfirst.trans ?_
    have hrest := ih (s := s.answered p [.strobe s.params.strobeCode.nop (some a)] a (bs.map some ++ some b :: sts))
      hin rfl rfl fun a ha => hpoll a (List.mem_cons_of_mem _ ha)
    rwa [State.answered_answered] at hrest

theorem afterFlushPoll_of_busy {s : State} {b : Byte} (h : b &&& s.params.idleMask ≠ 0) : afterFlushPoll b s = s :=
  if_neg (by simpa [idleReady] using h)

theorem afterFlushPoll_of_idle {s : State} {b : Byte} (h : b &&& s.params.idleMask = 0) :
    afterFlushPoll b s = if s.op = some .flushIdle then complete s else { s with phase := .fifoFlush } :=
  if_pos (by simpa [idleReady] using h)

theorem afterEndPoll_of_ne {s : State} {b : Byte} (h : b ≠ s.params.endStatus) : afterEndPoll b s = s :=
  if_neg (by simpa [endReached] using h)

theorem afterEndPoll_of_eq {s : State} {b : Byte} (h : b = s.params.endStatus) :
    afterEndPoll b s = { s with phase := .endIdle } :=
  if_pos (by simpa [endReached] using h)

/-- FlushIdle (R111): GO_IDLE, then NOPs up to and with the first status with the busy bits clear. -/
theorem reaches_flushIdle {s : State} {b0 b1 : Byte} {bs : List Byte} {sts : List (Option Byte)} (hin : s.inputs = [])
    (hp : s.phase = .flushCmd) (hst : s.statuses = some b0 :: (bs.map some ++ some b1 :: sts))
    (hbusy : ∀ b ∈ bs, b &&& s.params.idleMask ≠ 0) (hidle : b1 &&& s.params.idleMask = 0) :
    Reaches s (
      let es := .strobe s.params.strobeCode.goIdle (some b0) :: nops s (bs ++ [b1])
      if s.op = some .flushIdle then complete (s.answered .flushPoll es b1 sts) else s.answered .fifoFlush es b1 sts) := by
  refine (reaches_strobe hin hp rfl hst).trans ?_
  have hpoll := reaches_poll (p := .flushPoll)
    (s := s.answered .flushPoll [.strobe s.params.strobeCode.goIdle (some b0)] b0 (bs.map some ++ some b1 :: sts))
    hin rfl rfl rfl fun b hb u hu => afterFlushPoll_of_busy (hu ▸ hbusy b hb)
  rw [State.answered_answered, afterStrobe, afterFlushPoll_of_idle] at hpoll
  · exact hpoll
  · exact hidle

/-- The closing sequence (R118): NOPs up to and with the first END_STATUS, then GO_IDLE. -/
theorem reaches_ending {s : State} {e g : Byte} {bs : List Byte} {sts : List (Option Byte)} (hin : s.inputs = [])
    (hp : s.phase = .endPoll) (hst : s.statuses = bs.map some ++ some e :: some g :: sts)
    (hbusy : ∀ b ∈ bs, b ≠ s.params.endStatus) (hend : e = s.params.endStatus) :
    Reaches s (afterEndIdle g (s.answered .endIdle
      (nops s (bs ++ [e]) ++ [.strobe s.params.strobeCode.goIdle (some g)]) g sts)) := by
  have hpoll := reaches_poll hin hp rfl hst fun b hb u hu => afterEndPoll_of_ne (hu ▸ hbusy b hb)
  rw [afterStrobe, afterEndPoll_of_eq] at hpoll
  · refine hpoll.trans ?_
    have hidle := reaches_strobe (s := s.answered .endIdle (nops s (bs ++ [e])) e (some g :: sts)) hin rfl rfl rfl
    rwa [State.answered_answered] at hidle
  · exact hend

/-- Settles O53: FLUSH_IDLE is the shared procedure, and completes where it ends. -/
theorem flushIdleRuns : Obligations.FlushIdleRuns := by
  intro s b0 b1 bs rest hinv hb hin hst hbusy hidle
  obtain ⟨-, hp, -⟩ := idle_of_inv hinv hb
  have hrun := reaches_flushIdle (s := startFlushIdle (latchOperands s)) hin rfl hst hbusy hidle
  refine ⟨_, _, exec_starts (i := .flushIdle) hb nofun, hrun.runsTo, rfl, ?_, ?_⟩
  · show (0#11 ++ 0#5 ++ 0#16 : Word) = 0
    decide
  · rw [history_idle hp, history_idle (complete_phase _)]
    simp only [nops, List.map_append]
    rfl

/-- Settles O54: RAW_END is the closing sequence. -/
theorem rawEndRuns : Obligations.RawEndRuns := by
  intro s b2 bs rest hinv hb hin hst hbusy
  obtain ⟨-, hp, -⟩ := idle_of_inv hinv hb
  have hrun := reaches_ending (s := startRawEnd (latchOperands s)) hin rfl hst hbusy rfl
  rw [afterEndIdle, if_neg (by rintro ⟨⟨⟩, -⟩)] at hrun
  refine ⟨_, _, exec_starts (i := .rawEnd) hb nofun, hrun.runsTo, rfl, ?_⟩
  rw [history_idle hp, history_idle (complete_phase _)]
  simp only [nops, List.map_append, List.append_assoc]
  rfl

end Sys2Proof.Machine
end

section
/-! PROOFS. Bursts and waits run against a script of answers (40_port.md R94, R103), and StreamStart, which is made of them and of
strobes (41_stream.md R113). -/

namespace Sys2Proof.Machine

/-! The bytes to come and whether they may be taken. -/

/-- The next `n` bytes of `seq.src` may be taken: readable and not raced, or of written patterns (R50, R54, R57). -/
def Available (s : State) (n : Nat) : Prop :=
  match s.src with
  | .host p => bufferReadable s p n
  | .prn _ i => prnLoaded s = true ∧ i + n ≤ 64
  | .zero => True

theorem Available.left {s : State} {m n : Nat} (h : Available s (m + n)) : Available s m := by
  cases hsrc : s.src with
  | host p =>
    simp only [Available, hsrc] at h ⊢
    obtain ⟨hst, ha⟩ := h
    exact ⟨hst, fun i hi => ha i (by omega)⟩
  | prn sel i =>
    simp only [Available, hsrc] at h ⊢
    obtain ⟨hl, hle⟩ := h
    exact ⟨hl, by omega⟩
  | zero => simp only [Available, hsrc]

theorem Available.right {s : State} {m n : Nat} (h : Available s (m + n)) :
    Available { s with src := s.src.advance m } n := by
  cases hsrc : s.src with
  | host p =>
    simp only [Available, hsrc, Src.advance] at h ⊢
    obtain ⟨hst, ha⟩ := h
    exact ⟨hst, fun i hi => Nat.add_assoc p m i ▸ ha (m + i) (by omega)⟩
  | prn sel i =>
    simp only [Available, hsrc, Src.advance] at h ⊢
    obtain ⟨hl, hle⟩ := h
    exact ⟨hl, by omega⟩
  | zero => simp only [Available, Src.advance]

theorem nextBytes_add (s : State) (m n : Nat) :
    nextBytes s (m + n) = nextBytes s m ++ nextBytes { s with src := s.src.advance m } n := by
  cases hsrc : s.src with
  | host p => simp only [nextBytes, hsrc, Src.advance, bufferBytes, List.range_add, List.map_append, List.map_map,
      Function.comp_def, Nat.add_assoc]
  | prn sel i => simp only [nextBytes, hsrc, Src.advance, List.take_add, List.drop_drop]; rfl
  | zero => simp only [nextBytes, hsrc, Src.advance, List.replicate_add]

theorem nextBytes_length {s : State} {n : Nat} (h : Available s n) : (nextBytes s n).length = n := by
  cases hsrc : s.src with
  | host p => simp [nextBytes, hsrc, bufferBytes]
  | prn sel i =>
    simp only [Available, hsrc] at h
    simp only [nextBytes, hsrc, List.length_take, List.length_drop, patternBytes_length]
    omega
  | zero => simp [nextBytes, hsrc]

theorem Src.advance_advance (x : Src) (m n : Nat) : (x.advance m).advance n = x.advance (m + n) := by
  cases x <;> simp only [advance, Nat.add_assoc]

/-- A written pattern has a byte at each of its 64 places (R33, R57). -/
theorem exists_of_prnLoaded {s : State} (sel : Bool) {i : Nat} (h : prnLoaded s = true) (hi : i < 64) :
    ∃ b, (s.prn sel)[i]? = some (some b) := by
  rw [Vector.getElem?_eq_getElem hi]
  cases hb : (s.prn sel)[i] with
  | some b => exact ⟨b, rfl⟩
  | none => exact absurd (by rw [Vector.getElem?_eq_getElem hi, hb]) ((prnLoaded_iff s).mp h sel i)

/-- A byte that is available is taken, and is the first of those to come (R37). -/
theorem takeByte_available {s : State} (h : Available s 1) :
    ∃ b, nextBytes s 1 = [b] ∧ takeByte s = .ok (b, { s with src := s.src.advance 1 }) := by
  cases hsrc : s.src with
  | host p =>
    simp only [Available, hsrc] at h
    obtain ⟨hst, ha⟩ := h
    refine ⟨Memory.read s.mem p, ?_, takeByte_host hsrc (ha 0 Nat.zero_lt_one) hst⟩
    simp only [nextBytes, hsrc]
    rfl
  | prn sel i =>
    simp only [Available, hsrc] at h
    obtain ⟨hl, hle⟩ := h
    obtain ⟨b, hb⟩ := exists_of_prnLoaded sel hl hle
    refine ⟨b, ?_, takeByte_prn hsrc hb⟩
    simp only [nextBytes, hsrc, patternBytes_drop hb, List.take_succ_cons, List.take_zero]
  | zero =>
    have hadv : Src.zero.advance 1 = s.src := hsrc.symm
    refine ⟨0, by simp only [nextBytes, hsrc]; rfl, ?_⟩
    rw [takeByte_zero hsrc, hadv]

/-! A burst whose bytes are all taken. -/

/-- The bytes of a burst in flight are taken one by one, and it is closed (R94). -/
theorem reaches_closeBurst {s : State} {rds : List Bool} (hin : s.inputs = []) (hp : s.phase.bursting = true)
    (hr : s.readies = List.replicate s.burstLeft true ++ rds) (ha : Available s s.burstLeft) :
    Reaches s (afterBurst s.phase (closeBurst { s with
      readies := rds, src := s.src.advance s.burstLeft, burstSent := s.burstSent ++ nextBytes s s.burstLeft,
      burstLeft := 0 })) := by
  induction hl : s.burstLeft generalizing s with
  | zero =>
    have hrds : s.readies = rds := by simpa [hl] using hr
    rw [Src.advance_zero, nextBytes_zero, List.append_nil, ← hrds, ← hl]
    exact .of_step ((step_burst hin hp).trans (burstStep_closed hl))
  | succ n ih =>
    rw [hl, Nat.add_comm n 1] at ha
    rw [hl, List.replicate_succ, List.cons_append] at hr
    obtain ⟨b, hb, ht⟩ := takeByte_available
      (s := { s with issued := true, readies := List.replicate n true ++ rds }) ha.left
    refine (Reaches.of_step ((step_burst hin hp).trans (burstStep_taken hl hr ht))).trans ?_
    have hrest := ih (s := { s with
      issued := true, readies := List.replicate n true ++ rds, src := s.src.advance 1, burstLeft := n,
      burstSent := s.burstSent ++ [b] }) hin hp rfl ha.right rfl
    have hbytes : nextBytes s (1 + n) = [b] ++ nextBytes { s with src := s.src.advance 1 } n := hb ▸ nextBytes_add s 1 n
    rw [Src.advance_advance, List.append_assoc] at hrest
    rw [Nat.add_comm n 1, hbytes]
    exact hrest

/-- In phase `p`, the events `es` over, the last status `b`; `sts` and `rds` are what is left of the answers, and `k` bytes of the
source are out. -/
def State.sent (s : State) (p : Phase) (es : List PortEvent) (b : Byte) (sts : List (Option Byte)) (rds : List Bool)
    (k : Nat) : State :=
  { s.answered p es b sts with
    readies := rds, rem := s.rem - BitVec.ofNat 16 k, src := s.src.advance k, burstLeft := 0, burstSent := [] }

theorem State.sent_answered (s : State) (p q : Phase) (es fs : List PortEvent) (a b : Byte) (sts sts' : List (Option Byte))
    (rds : List Bool) (k : Nat) : (s.sent p es a sts rds k).answered q fs b sts' = s.sent q (es ++ fs) b sts' rds k := by
  simp only [sent, answered, List.append_assoc]

theorem State.answered_sent (s : State) (p q : Phase) (es fs : List PortEvent) (a b : Byte) (sts sts' : List (Option Byte))
    (rds : List Bool) (k : Nat) : (s.answered p es a sts).sent q fs b sts' rds k = s.sent q (es ++ fs) b sts' rds k := by
  simp only [sent, answered, List.append_assoc]

theorem State.sent_sent (s : State) (p q : Phase) (es fs : List PortEvent) (a b : Byte) (sts sts' : List (Option Byte))
    (rds rds' : List Bool) (j k : Nat) :
    (s.sent p es a sts rds j).sent q fs b sts' rds' k = s.sent q (es ++ fs) b sts' rds' (j + k) := by
  simp only [sent, answered, List.append_assoc, Src.advance_advance, BitVec.ofNat_add, BitVec.sub_sub]

/-- A further strobe, answered at once. -/
theorem reaches_answered {s : State} {p : Phase} {c : RadioCommand} {es : List PortEvent} {a b : Byte}
    {sts : List (Option Byte)} (hin : s.inputs = []) (hc : p.command = some c) :
    Reaches (s.answered p es a (some b :: sts))
      (afterStrobe p b (s.answered p (es ++ [.strobe (s.params.strobeCode.code c) (some b)]) b sts)) := by
  rw [← State.answered_answered]
  exact reaches_strobe hin rfl hc rfl

/-- A strobe after a burst, answered at once. -/
theorem reaches_sent {s : State} {p : Phase} {c : RadioCommand} {es : List PortEvent} {a b : Byte}
    {sts : List (Option Byte)} {rds : List Bool} {k : Nat} (hin : s.inputs = []) (hc : p.command = some c) :
    Reaches (s.sent p es a (some b :: sts) rds k)
      (afterStrobe p b (s.sent p (es ++ [.strobe (s.params.strobeCode.code c) (some b)]) b sts rds k)) := by
  rw [← State.sent_answered]
  exact reaches_strobe hin rfl hc rfl

/-- A burst of `k` bytes that are all taken is one event of those bytes (R94). -/
theorem reaches_burst {s : State} {p q : Phase} {es : List PortEvent} {b : Byte} {sts : List (Option Byte)}
    {rds : List Bool} {k : Nat} (hin : s.inputs = []) (hp : p.bursting = true)
    (hr : s.readies = List.replicate k true ++ rds) (ha : Available s k) :
    Reaches (enterBurst p k (s.answered q es b sts))
      (afterBurst p (s.sent p (es ++ [.burst (nextBytes s k)]) b sts rds k)) := by
  have hrun := reaches_closeBurst (s := enterBurst p k (s.answered q es b sts)) hin hp hr ha
  have hlen : ([] ++ nextBytes (enterBurst p k (s.answered q es b sts)) k).length = k := nextBytes_length ha
  simp only [closeBurst, enterBurst_burstSent, enterBurst_burstLeft, hlen] at hrun
  rw [← State.answered_sent s q p es _ b b sts sts]
  exact hrun

theorem reaches_wait {s : State} {p : Phase} {kind : WaitKind} (hin : s.inputs = []) (hp : s.phase = p)
    (hw : p.waitKind = some kind) : Reaches s (afterWait p (record (.wait kind) { s with waitLeft := 0 })) := by
  subst hp
  exact ⟨_, run_wait hin hw⟩

/-! StreamStart. -/

/-- The events of StreamStart: FlushIdle, FLUSH_TX, the initial burst, START_TX (R113). -/
def startEvents (s : State) (b0 b1 b2 b3 : Byte) (bs : List Byte) (k : Nat) : List PortEvent :=
  .strobe s.params.strobeCode.goIdle (some b0) :: nops s (bs ++ [b1]) ++
    [.strobe s.params.strobeCode.flushTx (some b2)] ++ [.burst (nextBytes s k)] ++
    [.strobe s.params.strobeCode.startTx (some b3)]

/-- StreamStart runs to START_TX where its poll ends and its initial burst is taken (R111, R113). -/
theorem reaches_streamStart {s : State} {b0 b1 b2 b3 : Byte} {bs : List Byte} {sts : List (Option Byte)} {rds : List Bool}
    {k : Nat} (hin : s.inputs = []) (hp : s.phase = .flushCmd) (ho : s.op ≠ some .flushIdle)
    (hst : s.statuses = some b0 :: (bs.map some ++ some b1 :: some b2 :: some b3 :: sts))
    (hbusy : ∀ b ∈ bs, b &&& s.params.idleMask ≠ 0) (hidle : b1 &&& s.params.idleMask = 0)
    (hk : min (streamLen s) Config.fifoCap = k) (hr : s.readies = List.replicate k true ++ rds) (ha : Available s k) :
    Reaches s (afterStart b3 (s.sent .start (startEvents s b0 b1 b2 b3 bs k) b3 sts rds k)) := by
  have hflush := reaches_flushIdle hin hp hst hbusy hidle
  simp only [if_neg ho] at hflush
  have hfifo {es} : Reaches (s.answered .fifoFlush es b1 (some b2 :: some b3 :: sts))
      (enterBurst .load k (s.answered .fifoFlush (es ++ [.strobe s.params.strobeCode.flushTx (some b2)]) b2 (some b3 :: sts))) := by
    rw [← hk]
    exact reaches_answered (p := .fifoFlush) (c := .flushTx) hin rfl
  have hload {es} : Reaches (enterBurst .load k (s.answered .fifoFlush es b2 (some b3 :: sts)))
      (s.sent .start (es ++ [.burst (nextBytes s k)]) b2 (some b3 :: sts) rds k) :=
    reaches_burst hin rfl hr ha
  have hstart {es} : Reaches (s.sent .start es b2 (some b3 :: sts) rds k)
     (afterStart b3 (s.sent .start (es ++ [.strobe s.params.strobeCode.startTx (some b3)]) b3 sts rds k)) :=
    reaches_sent (p := .start) (c := .startTx) hin rfl
  exact hflush.trans (hfifo.trans (hload.trans hstart))

theorem streamLen_of_stream {s : State} (h : s.inSymbol = false) : streamLen s = s.lLen.toNat :=
  if_neg (ne_true_of_eq_false h)

/-- Settles O55: the stream starts with the whole buffer in its initial burst, and RAW_TX completes with START_TX. -/
theorem rawTxShortRuns : Obligations.RawTxShortRuns := by
  intro s b0 b1 b2 b3 bs rest ready hinv hb hin hlen hrange hread hst hr hbusy hidle
  obtain ⟨-, hp, -⟩ := idle_of_inv hinv hb
  have hrun := reaches_streamStart (s := startRawTx (latchOperands s)) (k := s.argLen.toNat) hin rfl nofun hst hbusy hidle
    (Nat.min_eq_left hlen) hr hread
  rw [afterStart, if_pos (by exact hlen), refillDone, if_neg (by exact nofun)] at hrun
  refine ⟨_, _, exec_starts hb fun _ => rangeFails_eq_false (.inr hrange), hrun.runsTo, ?_⟩
  rw [history_idle hp, history_idle (complete_phase _)]
  simp only [State.sent, State.answered, complete_past, startEvents, nops, List.map_append, List.append_assoc,
    List.cons_append]
  rfl

end Sys2Proof.Machine
end

section
/-! PROOFS. The refill loop run against a script of answers (41_stream.md R112), and the operations made of it (R115 to R117). -/

namespace Sys2Proof.Machine

/-- A strobe after a wait. -/
theorem State.answered_afterWait (s : State) (p q : Phase) (e : PortEvent) (es : List PortEvent) (b : Byte)
    (sts : List (Option Byte)) : (afterWait p (record e s)).answered q es b sts = s.answered q (e :: es) b sts := by
  simp only [answered, afterWait, record, List.append_assoc, List.singleton_append]

/-- The events of one turn of the refill loop: the wait, the query answered by `b`, a burst of `k` bytes (R112). -/
def turnEvents (s : State) (b : Byte) (k : Nat) : List PortEvent :=
  [.wait .refill, .strobe s.params.strobeCode.nop (some b), .burst (nextBytes s k)]

theorem fifoStream_turnEvents (s : State) (b : Byte) (k : Nat) : fifoStream (turnEvents s b k) = nextBytes s k := by
  simp [fifoStream, turnEvents, PortEvent.bytes]

/-- One turn of the refill loop: the wait, the query answered by `b`, and a burst of the free space reported or of what is left. -/
theorem reaches_refillTest {s : State} {b : Byte} {sts : List (Option Byte)} {rds : List Bool} {k : Nat}
    (hin : s.inputs = []) (hp : s.phase = .refillWait) (hst : s.statuses = some b :: sts)
    (hk : min (freeSpace s.params b) s.rem.toNat = k) (hr : s.readies = List.replicate k true ++ rds) (ha : Available s k) :
    Reaches s (refillTest ({ s with waitLeft := 0 }.sent .refillWrite (turnEvents s b k) b sts rds k)) := by
  have hquery : Reaches (afterWait .refillWait (record (.wait .refill) { s with waitLeft := 0 }))
      (enterBurst .refillWrite k ({ s with waitLeft := 0 }.answered .refillQuery
        [.wait .refill, .strobe s.params.strobeCode.nop (some b)] b sts)) := by
    have h := reaches_strobe (s := afterWait .refillWait (record (.wait .refill) { s with waitLeft := 0 }))
      (p := .refillQuery) (c := .nop) hin rfl rfl hst
    rw [State.answered_afterWait] at h
    rw [← hk]
    exact h
  exact (reaches_wait (kind := .refill) hin hp rfl).trans
    (hquery.trans (reaches_burst (p := .refillWrite) (s := { s with waitLeft := 0 }) hin rfl hr ha))

/-- How many bursts of at most `n` bytes `m` bytes take: one, and those of what is left then. -/
theorem bursts_succ {m n : Nat} (hn : 0 < n) (hm : 0 < m) : (m + n - 1) / n = (m - min n m + n - 1) / n + 1 := by
  obtain h | h := Nat.le_total m n
  · rw [Nat.min_eq_right h, Nat.sub_self, Nat.zero_add, Nat.div_eq_of_lt (by omega : n - 1 < n)]
    exact Nat.div_eq_of_lt_le (by omega) (by omega)
  · rw [Nat.min_eq_left h, ← Nat.add_div_right _ hn]
    congr 1
    omega

/-- The refill loop runs to its end where every query is answered by a status that reports free space and every byte is taken;
its bursts are the bytes it had to send (R112). -/
theorem reaches_refillDone {s : State} {b : Byte} {sts : List (Option Byte)} {rds : List Bool} {m : Nat}
    (hin : s.inputs = []) (hp : s.phase = .refillWait) (hm : s.rem.toNat = m) (hpos : 0 < m)
    (hfree : 0 < freeSpace s.params b)
    (hst : s.statuses = List.replicate ((m + freeSpace s.params b - 1) / freeSpace s.params b) (some b) ++ sts)
    (hr : s.readies = List.replicate m true ++ rds) (ha : Available s m) :
    ∃ es, fifoStream es = nextBytes s m ∧
      Reaches s (refillDone ({ s with waitLeft := 0 }.sent .refillWrite es b sts rds m)) := by
  induction m using Nat.strong_induction_on generalizing s with | _ m ih
  obtain ⟨k, hk⟩ : ∃ k, min (freeSpace s.params b) m = k := ⟨_, rfl⟩
  obtain ⟨l, rfl⟩ : ∃ l, m = k + l := ⟨m - k, by omega⟩
  rw [bursts_succ hfree hpos, hk, Nat.add_sub_cancel_left, List.replicate_succ, List.cons_append] at hst
  rw [List.replicate_add, List.append_assoc] at hr
  have hturn := reaches_refillTest hin hp hst (hm ▸ hk) hr ha.left
  have hleft : (s.rem - BitVec.ofNat 16 k).toNat = l := by
    have hlt := s.rem.isLt
    rw [BitVec.toNat_sub, BitVec.toNat_ofNat]
    omega
  obtain rfl | hl := Nat.eq_zero_or_pos l
  · rw [refillTest, if_pos (BitVec.eq_of_toNat_eq hleft)] at hturn
    rw [Nat.zero_add, Nat.div_eq_of_lt (Nat.sub_lt hfree Nat.one_pos)] at hturn
    exact ⟨_, fifoStream_turnEvents s b k, hturn⟩
  · rw [refillTest, if_neg fun hz => hl.ne' (hleft.symm.trans (congrArg BitVec.toNat hz))] at hturn
    obtain ⟨es, hes, hrest⟩ := ih l (by omega) (s := enterRefillWait (State.sent { s with waitLeft := 0 } .refillWrite
        (turnEvents s b k) b (List.replicate ((l + freeSpace s.params b - 1) / freeSpace s.params b) (some b) ++ sts)
        (List.replicate l true ++ rds) k))
      hin rfl hleft hl hfree rfl rfl ha.right
    refine ⟨turnEvents s b k ++ es, ?_, hturn.trans ?_⟩
    · rw [nextBytes_add, fifoStream_append, fifoStream_turnEvents, hes]
      rfl
    · rw [← State.sent_sent]
      exact hrest

end Sys2Proof.Machine
end

section
/-! PROOFS. RAW_TX, RAW_CONT and RAW_ZERO run to completion and write their whole stream (41_stream.md R115 to R117, R123, R124). -/

namespace Sys2Proof.Machine

/-- From `s` to `t` the bytes `bs` have been written, and no event that was over is lost (R16). -/
def Wrote (s t : State) (bs : List Byte) : Prop := ∃ es, t.past = s.past ++ es ∧ fifoStream es = bs

theorem Wrote.trans {s t u : State} {as bs : List Byte} (h : Wrote s t as) (h' : Wrote t u bs) : Wrote s u (as ++ bs) := by
  obtain ⟨es, ht, rfl⟩ := h
  obtain ⟨fs, hu, rfl⟩ := h'
  exact ⟨es ++ fs, by rw [hu, ht, List.append_assoc], fifoStream_append es fs⟩

/-- Between two idle states what was written is the stream of the events since. -/
theorem Wrote.fifoStream_eventsSince {s t : State} {bs : List Byte} (h : Wrote s t bs) (hs : s.phase = .idle)
    (ht : t.phase = .idle) : fifoStream (eventsSince s.history.length t) = bs := by
  obtain ⟨es, hpast, rfl⟩ := h
  rw [eventsSince, history_idle hs, history_idle ht, hpast, List.drop_left]

/-- In a completed state nothing is left of the transfer (R38). -/
theorem Inv.rem_of_runsTo {s t : State} (h : Inv s) (hrun : runsTo s t) : t.rem = 0 := by
  obtain ⟨k, hk, hb, -⟩ := hrun
  obtain ⟨-, -, hrem, -⟩ := idle_of_inv (run_keeps stepKeepsControllerInvariant h hk) hb
  exact hrem

theorem fifoStream_nops (s : State) (bs : List Byte) : fifoStream (nops s bs) = [] := by
  simp [fifoStream, nops, PortEvent.bytes]

theorem fifoStream_startEvents (s : State) (b0 b1 b2 b3 : Byte) (bs : List Byte) (k : Nat) :
    fifoStream (startEvents s b0 b1 b2 b3 bs k) = nextBytes s k := by
  simp only [startEvents, fifoStream_append, fifoStream_strobe, fifoStream_burst, List.append_nil]
  exact congrArg (· ++ _) (fifoStream_nops s _)

theorem refillTest_of_zero {s : State} (h : s.rem = 0) : refillTest s = refillDone s := if_pos h

theorem refillTest_of_ne {s : State} (h : s.rem ≠ 0) : refillTest s = enterRefillWait s := if_neg h

theorem refillDone_of_symbol {s : State} (h : s.inSymbol = true) : refillDone s = nextChip s := if_pos h

theorem refillDone_of_stream {s : State} (h : s.inSymbol = false) : refillDone s = complete s :=
  if_neg (ne_true_of_eq_false h)

theorem afterStart_of_short {s : State} (b : Byte) (h : streamLen s ≤ 64) : afterStart b s = refillDone s := if_pos h

theorem afterStart_of_long {s : State} (b : Byte) (h : 64 < streamLen s) :
    afterStart b s = { s with phase := .settlePoll } := if_neg (Nat.not_le.mpr h)

theorem afterSettlePoll_of_settled {s : State} {b : Byte} (h : b &&& s.params.settleMask = 0) :
    afterSettlePoll b s = refillLoop s.src (BitVec.ofNat 16 (streamLen s - 64)) s :=
  if_pos (by simpa [settled] using h)

/-- The refill loop of an operation without symbols, from its test on: where at least one answer is at hand for every byte, each
reporting free space, the operation completes and has written what was left (R112, R115 to R117). -/
theorem runsTo_refillTest {s : State} {b : Byte} {sts : List (Option Byte)} {rds : List Bool} {m : Nat}
    (hin : s.inputs = []) (hs : s.inSymbol = false) (hfree : 0 < freeSpace s.params b) (hm : s.rem.toNat ≤ m)
    (hst : s.statuses = List.replicate m (some b) ++ sts) (hr : s.readies = List.replicate s.rem.toNat true ++ rds)
    (ha : Available s s.rem.toNat) :
    ∃ t, runsTo (refillTest s) t ∧ t.result = s.result ∧ Wrote s t (nextBytes s s.rem.toNat) := by
  by_cases hz : s.rem = 0
  · rw [refillTest_of_zero hz, refillDone_of_stream hs, hz]
    exact ⟨_, ⟨0, rfl, rfl, rfl, rfl⟩, rfl, [], (List.append_nil _).symm, nextBytes_zero.symm⟩
  · have hpos : 0 < s.rem.toNat := Nat.pos_of_ne_zero fun e => hz (BitVec.eq_of_toNat_eq e)
    have hcount := Nat.div_le_of_le_mul ((Nat.add_sub_one_le_mul hpos.ne' hfree.ne').trans_eq (Nat.mul_comm _ _))
    rw [← Nat.add_sub_of_le (hcount.trans hm), List.replicate_add, List.append_assoc] at hst
    obtain ⟨es, hes, hrun⟩ := reaches_refillDone (s := enterRefillWait s) hin rfl rfl hpos hfree hst hr ha
    rw [refillDone_of_stream (by exact hs)] at hrun
    rw [refillTest_of_ne hz]
    exact ⟨_, hrun.runsTo, rfl, es, rfl, hes⟩

/-- From the settle poll on, answered at once by a status with the settling bits clear, a stream of more than 64 bytes goes through
the refill loop (R98, R113). -/
theorem runsTo_settlePoll {s : State} {es : List PortEvent} {a b : Byte} {sts : List (Option Byte)} {rds : List Bool}
    {l m : Nat} (hin : s.inputs = []) (hs : s.inSymbol = false) (hl : s.lLen.toNat = 64 + l) (hm : l ≤ m)
    (hsettle : b &&& s.params.settleMask = 0) (hfree : 0 < freeSpace s.params b) (ha : Available s (64 + l)) :
    ∃ t, runsTo (s.sent .settlePoll es a (some b :: (List.replicate m (some b) ++ sts)) (List.replicate l true ++ rds) 64) t ∧
      t.result = s.result ∧ ∃ fs, t.past = s.past ++ es ++ fs ∧ fifoStream fs = nextBytes { s with src := s.src.advance 64 } l := by
  have hpoll := reaches_sent (s := s) (p := .settlePoll) (es := es) (a := a) (b := b)
    (sts := List.replicate m (some b) ++ sts) (rds := List.replicate l true ++ rds) (k := 64) hin rfl
  have hlen : streamLen s - 64 = l := by rw [streamLen_of_stream hs, hl, Nat.add_sub_cancel_left]
  have hrem : (BitVec.ofNat 16 (streamLen s - 64)).toNat = l := by
    have hlt := s.lLen.isLt
    rw [hlen, BitVec.toNat_ofNat]
    omega
  rw [afterStrobe, afterSettlePoll_of_settled (by exact hsettle), refillLoop] at hpoll
  obtain ⟨t, ht, hresult, fs, hpast, hfs⟩ := runsTo_refillTest
    (s := { s.sent .settlePoll (es ++ [.strobe s.params.strobeCode.nop (some b)]) b (List.replicate m (some b) ++ sts)
      (List.replicate l true ++ rds) 64 with rem := BitVec.ofNat 16 (streamLen s - 64) })
    hin hs hfree (hrem.trans_le hm) rfl (by rw [hrem]; rfl) (by rw [hrem]; exact ha.right)
  refine ⟨t, hpoll.trans_runsTo ht, hresult, .strobe s.params.strobeCode.nop (some b) :: fs, ?_, ?_⟩
  · simp only [hpast, State.sent, State.answered, List.append_assoc, List.singleton_append]
  · exact hfs.trans (hrem ▸ rfl)

/-- RAW_TX from its first strobe on: a short stream is all in the initial burst, the rest of a long one goes through the refill
loop (R113, R115). -/
theorem runsTo_streamStart {s : State} {b : Byte} {sts : List (Option Byte)} {rds : List Bool}
    (hin : s.inputs = []) (hp : s.phase = .flushCmd) (ho : s.op = some .rawTx) (hfree : 0 < freeSpace s.params b)
    (hidle : b &&& s.params.idleMask = 0) (hsettle : 64 < s.lLen.toNat → b &&& s.params.settleMask = 0)
    (hst : s.statuses = List.replicate (s.lLen.toNat + 5) (some b) ++ sts)
    (hr : s.readies = List.replicate s.lLen.toNat true ++ rds) (ha : Available s s.lLen.toNat) :
    ∃ t, runsTo s t ∧ t.result = s.result ∧ Wrote s t (nextBytes s s.lLen.toNat) := by
  have hs : s.inSymbol = false := inSymbol_of_op ho
  have hlen := streamLen_of_stream hs
  have start {k : Nat} {rds : List Bool} (hk : min (streamLen s) 64 = k)
      (hr : s.readies = List.replicate k true ++ rds) (ha : Available s k) :=
    reaches_streamStart (bs := []) (sts := some b :: (List.replicate s.lLen.toNat (some b) ++ sts))
      hin hp (by rw [ho]; nofun) hst nofun hidle hk hr ha
  obtain hshort | hlong := le_or_gt s.lLen.toNat 64
  · have hrun := start (by omega) hr ha
    rw [afterStart_of_short b (by exact hlen.trans_le hshort), refillDone_of_stream (by exact hs)] at hrun
    exact ⟨_, hrun.runsTo, rfl, _, rfl, fifoStream_startEvents _ _ _ _ _ _ _⟩
  · obtain ⟨l, hl⟩ := Nat.exists_eq_add_of_le hlong.le
    rw [hl] at ha
    rw [hl, List.replicate_add, List.append_assoc] at hr
    have hrun := start (by omega) hr ha.left
    rw [afterStart_of_long b (by exact hlen ▸ hlong)] at hrun
    obtain ⟨t, ht, hresult, fs, hpast, hfs⟩ := runsTo_settlePoll (es := startEvents s b b b b [] 64) (a := b)
      (m := s.lLen.toNat) (sts := sts) (rds := rds) hin hs hl (by omega) (hsettle hlong) hfree ha
    refine ⟨t, hrun.trans_runsTo ht, hresult, startEvents s b b b b [] 64 ++ fs, hpast.trans (List.append_assoc _ _ _), ?_⟩
    rw [hl, nextBytes_add, fifoStream_append, fifoStream_startEvents, hfs]

/-- Settles O57: RAW_TX starts its stream, RAW_CONT and RAW_ZERO their refill loop, each from its own source. -/
theorem streamOperationsRun : Obligations.StreamOperationsRun := by
  intro s b i hinv hb hin hfree hanswers htx hi
  obtain ⟨⟨sts, hst⟩, rds, hr⟩ := hanswers
  obtain ⟨-, hp, -⟩ := idle_of_inv hinv hb
  have finish {u : State} {bs : List Byte} (he : exec i s = .next u)
      (hrun : ∃ t, runsTo u t ∧ t.result = s.result ∧ Wrote s t bs) :
      ∃ s1 t, exec i s = .next s1 ∧ runsTo s1 t ∧ t.rem = 0 ∧ t.result = s.result ∧
        fifoStream (eventsSince s.history.length t) = bs := by
    obtain ⟨t, ht, hresult, hw⟩ := hrun
    have ⟨_, _, _, _, hidle⟩ := ht
    exact ⟨u, t, he, ht, Inv.rem_of_runsTo (exec_inv hinv he) ht, hresult, hw.fifoStream_eventsSince hp hidle⟩
  have hmany := Nat.le_add_right s.argLen.toNat 5
  obtain rfl | ⟨rfl | rfl, hrange, hread⟩ := hi
  · exact finish (exec_starts (i := .rawZero) hb nofun) (runsTo_refillTest
      (s := { beginOp .rawZero (latchOperands s) with chip := 0, symidx := 0, src := .zero, rem := s.argLen })
      hin rfl hfree hmany hst hr trivial)
  · obtain ⟨hidle, hsettle⟩ := htx rfl
    exact finish (exec_starts hb fun _ => rangeFails_eq_false (.inr hrange)) (runsTo_streamStart
      (s := startRawTx (latchOperands s)) hin rfl rfl hfree hidle hsettle hst hr hread)
  · exact finish (exec_starts hb fun _ => rangeFails_eq_false (.inr hrange)) (runsTo_refillTest
      (s := { beginOp .rawCont (latchOperands s) with
        chip := 0, symidx := 0, src := .host s.argAddr.toNat, rem := s.argLen })
      hin rfl hfree hmany hst hr hread)

end Sys2Proof.Machine
end

section
/-! PROOFS. A symbol run against a script of answers (43_spreader.md R162, R164, R165): its 30 chips, one after another. -/

namespace Sys2Proof.Machine

/-- Chip `j` of a symbol is bit `29 − j` of its chip word (R162). -/
theorem symbolChips_eq_chipWord (masks : Vector Byte 8) (d : Byte) :
    symbolChips masks d = (List.range 30).map fun j => (chipWord masks d).getLsbD (29 - j) := by
  have hbit (j : Nat) : (chipWord masks d).getLsbD j =
      (0b1110010#7 ++ fecParity masks d ++ d ++ 0b1011000#7 : BitVec (7 + 8 + 8 + 7)).getLsbD j := rfl
  simp only [hbit, BitVec.getLsbD_append]
  rfl

/-- The stream of a symbol is that of its first chip and of the 29 others (R165). -/
theorem symbolStream_eq (s : State) (d : Byte) :
    symbolStream s d = patternBytes s ((chipWord s.params.fecMasks d).getLsbD 29) ++
      (List.range 29).flatMap fun i => patternBytes s ((chipWord s.params.fecMasks d).getLsbD (29 - (1 + i))) := by
  rw [symbolStream, symbolChips_eq_chipWord, List.flatMap_map, List.range_succ_eq_map, List.flatMap_cons, List.flatMap_map]
  simp only [Nat.succ_eq_one_add]

/-- Within a symbol only the phase, the chip and its transfer, the wait, the status, the scripts and the events may differ. -/
def SymbolFrame (s t : State) : Prop :=
  ∃ u : State, t = { s with
    phase := u.phase, chip := u.chip, rem := u.rem, src := u.src, issued := u.issued, burstLeft := u.burstLeft,
    burstSent := u.burstSent, waitLeft := u.waitLeft, lastRStatus := u.lastRStatus, statuses := u.statuses,
    readies := u.readies, past := u.past }

theorem SymbolFrame.of_eq {s t : State} (h : t = { s with
    phase := t.phase, chip := t.chip, rem := t.rem, src := t.src, issued := t.issued, burstLeft := t.burstLeft,
    burstSent := t.burstSent, waitLeft := t.waitLeft, lastRStatus := t.lastRStatus, statuses := t.statuses,
    readies := t.readies, past := t.past }) : SymbolFrame s t := ⟨t, h⟩

theorem SymbolFrame.trans {s t u : State} (h : SymbolFrame s t) (h' : SymbolFrame t u) : SymbolFrame s u := by
  obtain ⟨v, rfl⟩ := h
  obtain ⟨w, rfl⟩ := h'
  exact ⟨w, rfl⟩

section
variable {s t : State} (h : SymbolFrame s t)
include h

theorem SymbolFrame.inputs : t.inputs = s.inputs := by obtain ⟨u, rfl⟩ := h; rfl
theorem SymbolFrame.params : t.params = s.params := by obtain ⟨u, rfl⟩ := h; rfl
theorem SymbolFrame.op : t.op = s.op := by obtain ⟨u, rfl⟩ := h; rfl
theorem SymbolFrame.symidx : t.symidx = s.symidx := by obtain ⟨u, rfl⟩ := h; rfl
theorem SymbolFrame.stale : t.stale = s.stale := by obtain ⟨u, rfl⟩ := h; rfl
theorem SymbolFrame.lLen : t.lLen = s.lLen := by obtain ⟨u, rfl⟩ := h; rfl
theorem SymbolFrame.inSymbol : t.inSymbol = s.inSymbol := by obtain ⟨u, rfl⟩ := h; rfl
theorem SymbolFrame.prnLoaded : prnLoaded t = prnLoaded s := by obtain ⟨u, rfl⟩ := h; rfl
theorem SymbolFrame.chipBit : chipBit t = chipBit s := by obtain ⟨u, rfl⟩ := h; rfl
theorem SymbolFrame.patternBytes : patternBytes t = patternBytes s := by obtain ⟨u, rfl⟩ := h; rfl

end

/-- The bytes to come at the beginning of a chip are its pattern (R160). -/
theorem nextBytes_chip {s : State} {sel : Bool} (h : s.src = .prn sel 0) : nextBytes s 64 = patternBytes s sel := by
  simp only [nextBytes, h, List.drop_zero]
  exact List.take_of_length_le (patternBytes_length s sel).le

/-- How many free-space queries one chip of 64 bytes takes (R112, R164). -/
def chipQueries (n : Nat) : Nat := (64 + n - 1) / n

/-- The next chip goes through the refill loop, which writes its pattern (R112, R164). -/
theorem reaches_chip {s : State} {b : Byte} {sts : List (Option Byte)} {rds : List Bool} (hin : s.inputs = [])
    (hl : prnLoaded s = true) (hs : s.inSymbol = true) (hfree : 0 < freeSpace s.params b) (hc : s.chip.val + 1 < 30)
    (hst : s.statuses = List.replicate (chipQueries (freeSpace s.params b)) (some b) ++ sts)
    (hr : s.readies = List.replicate 64 true ++ rds) :
    ∃ t, Reaches (nextChip s) (nextChip t) ∧ SymbolFrame s t ∧ t.chip.val = s.chip.val + 1 ∧ t.statuses = sts ∧
      t.readies = rds ∧ Wrote s t (patternBytes s (chipBit s (s.chip.val + 1))) := by
  obtain ⟨es, hes, hrun⟩ := reaches_refillDone (m := 64)
    (s := enterRefillWait { s with chip := ⟨s.chip.val + 1, hc⟩, src := .prn (chipBit s (s.chip.val + 1)) 0, rem := 64 })
    hin rfl rfl (by decide) hfree hst hr ⟨hl, Nat.le_refl _⟩
  rw [refillDone_of_symbol (by exact hs)] at hrun
  rw [nextBytes_chip rfl] at hes
  rw [nextChip, dif_pos hc]
  exact ⟨_, hrun, SymbolFrame.of_eq rfl, rfl, rfl, rfl, es, rfl, hes⟩

/-- The chips still to come, one after another, and then the end poll (R164). -/
theorem reaches_endPoll {s : State} {b : Byte} {sts : List (Option Byte)} {rds : List Bool} {m : Nat}
    (hin : s.inputs = []) (hl : prnLoaded s = true) (hs : s.inSymbol = true) (hfree : 0 < freeSpace s.params b)
    (hm : s.chip.val + m = 29)
    (hst : s.statuses = List.replicate (m * chipQueries (freeSpace s.params b)) (some b) ++ sts)
    (hr : s.readies = List.replicate (m * 64) true ++ rds) :
    ∃ t, Reaches (nextChip s) t ∧ SymbolFrame s t ∧ t.phase = .endPoll ∧ t.chip.val = 29 ∧ t.statuses = sts ∧
      t.readies = rds ∧ Wrote s t ((List.range m).flatMap fun i => patternBytes s (chipBit s (s.chip.val + (1 + i)))) := by
  induction m generalizing s with
  | zero =>
    rw [nextChip, dif_neg (by omega)]
    exact ⟨_, ⟨0, rfl⟩, SymbolFrame.of_eq rfl, rfl, hm, by simpa using hst, by simpa using hr, [],
      (List.append_nil _).symm, rfl⟩
  | succ m ih =>
    rw [Nat.add_comm m 1, Nat.add_mul, Nat.one_mul, List.replicate_add, List.append_assoc] at hst hr
    obtain ⟨t, hchip, hframe, hval, hsts, hrds, hw⟩ := reaches_chip hin hl hs hfree (by omega) hst hr
    obtain ⟨u, hrun, hframe', hphase, hlast, hend, hready, hws⟩ := ih (s := t) (hframe.inputs.trans hin)
      (hframe.prnLoaded.trans hl) (hframe.inSymbol.trans hs) (hframe.params ▸ hfree) (by omega) (hframe.params ▸ hsts) hrds
    refine ⟨u, hchip.trans hrun, hframe.trans hframe', hphase, hlast, hend, hready, ?_⟩
    rw [hframe.patternBytes, hframe.chipBit, hval] at hws
    rw [List.range_succ_eq_map, List.flatMap_cons, List.flatMap_map]
    simp only [Nat.succ_eq_add_one, Nat.add_comm, Nat.add_left_comm] at hws ⊢
    exact hw.trans hws

/-- The first chip of a symbol is the initial burst of its StreamStart (R113, R164). -/
theorem reaches_firstChip {s : State} {d b : Byte} {sts : List (Option Byte)} {rds : List Bool} (hin : s.inputs = [])
    (hl : prnLoaded s = true) (hs : s.inSymbol = true) (hidle : b &&& s.params.idleMask = 0)
    (hst : s.statuses = some b :: some b :: some b :: some b :: sts) (hr : s.readies = List.replicate 64 true ++ rds) :
    ∃ t, Reaches (txSymbol d s) (nextChip t) ∧ SymbolFrame (txSymbol d s) t ∧ t.chip.val = 0 ∧ t.statuses = sts ∧
      t.readies = rds ∧ Wrote s t (patternBytes s ((chipWord s.params.fecMasks d).getLsbD 29)) := by
  have hlen : streamLen (txSymbol d s) = 64 := if_pos hs
  have hne : (txSymbol d s).op ≠ some .flushIdle := by
    show s.op ≠ _
    obtain ho | ho := (inSymbol_iff s).mp hs <;> rw [ho] <;> nofun
  have hrun := reaches_streamStart (s := txSymbol d s) (bs := []) (k := 64) hin rfl hne hst nofun hidle
    (by rw [hlen]; rfl) hr ⟨hl, Nat.le_refl _⟩
  rw [afterStart_of_short b (by exact hlen.le), refillDone_of_symbol (by exact hs)] at hrun
  exact ⟨_, hrun, .of_eq rfl, rfl, rfl, rfl, _, rfl,
    (fifoStream_startEvents _ _ _ _ _ _ _).trans (nextBytes_chip (s := txSymbol d s) rfl)⟩

/-- A symbol runs to its last GO_IDLE and writes its stream (R164, R165). -/
theorem reaches_symbol {s : State} {d b e g : Byte} {sts : List (Option Byte)} {rds : List Bool} (hin : s.inputs = [])
    (hl : prnLoaded s = true) (hs : s.inSymbol = true) (hidle : b &&& s.params.idleMask = 0)
    (hfree : 0 < freeSpace s.params b) (he : e = s.params.endStatus)
    (hst : s.statuses = symbolAnswers (freeSpace s.params b) b e g ++ sts)
    (hr : s.readies = List.replicate 1920 true ++ rds) :
    ∃ t, Reaches (txSymbol d s) (afterEndIdle g t) ∧ SymbolFrame (txSymbol d s) t ∧ t.chip.val = 29 ∧
      t.lastRStatus = g ∧ t.statuses = sts ∧ t.readies = rds ∧ Wrote s t (symbolStream s d) := by
  rw [symbolAnswers, List.replicate_add, List.append_assoc, List.append_assoc] at hst
  rw [show 1920 = 64 + 29 * 64 from rfl, List.replicate_add, List.append_assoc] at hr
  obtain ⟨t, hfirst, hframe, hchip, hsts, hrds, hw⟩ := reaches_firstChip (d := d) hin hl hs hidle hst hr
  obtain ⟨u, hchips, hframe', hphase, hlast, hsts', hrds', hw'⟩ := reaches_endPoll (m := 29) (hframe.inputs.trans hin)
    (hframe.prnLoaded.trans hl) (hframe.inSymbol.trans hs) (hframe.params ▸ hfree) (by omega) (hframe.params ▸ hsts) hrds
  have hall := hframe.trans hframe'
  have hend := reaches_ending (bs := []) (hall.inputs.trans hin) hphase hsts' nofun (hall.params ▸ he)
  refine ⟨_, hfirst.trans (hchips.trans hend), hall.trans (.of_eq rfl), hlast, rfl, rfl, hrds', ?_⟩
  simp only [hframe.patternBytes, hframe.chipBit, hchip, Nat.zero_add] at hw'
  have hends : Wrote u (u.answered .endIdle (nops u [e] ++ [.strobe u.params.strobeCode.goIdle (some g)]) g sts) [] :=
    ⟨_, rfl, (fifoStream_append _ _).trans (congrArg (· ++ _) (fifoStream_nops u _))⟩
  have hwrote := (hw.trans hw').trans hends
  rw [List.append_nil] at hwrote
  exact symbolStream_eq s d ▸ hwrote

theorem afterEndIdle_of_last {s : State} (g : Byte) (h : s.op = some .txBuf → s.lLen.toNat ≤ s.symidx.toNat + 1) :
    afterEndIdle g s = complete s :=
  if_neg fun ⟨ho, hlt⟩ => Nat.not_lt.mpr (h ho) hlt

theorem afterEndIdle_of_more {s : State} (g : Byte) (ho : s.op = some .txBuf) (h : s.symidx.toNat + 1 < s.lLen.toNat) :
    afterEndIdle g s = enterSymWait { s with symidx := s.symidx + 1 } := if_pos ⟨ho, h⟩

section
variable {s t : State} (h : BlockFrame s t)
include h

theorem BlockFrame.trans {u : State} (h' : BlockFrame t u) : BlockFrame s u := by
  unfold BlockFrame at *
  rw [h', h]

theorem BlockFrame.inputs : t.inputs = s.inputs := by unfold BlockFrame at h; rw [h]
theorem BlockFrame.params : t.params = s.params := by unfold BlockFrame at h; rw [h]
theorem BlockFrame.lLen : t.lLen = s.lLen := by unfold BlockFrame at h; rw [h]
theorem BlockFrame.lAddr : t.lAddr = s.lAddr := by unfold BlockFrame at h; rw [h]
theorem BlockFrame.mem : t.mem = s.mem := by unfold BlockFrame at h; rw [h]
theorem BlockFrame.result : t.result = s.result := by unfold BlockFrame at h; rw [h]
theorem BlockFrame.prnLoaded : prnLoaded t = prnLoaded s := by unfold BlockFrame at h; rw [h]; rfl
theorem BlockFrame.symbolStream : symbolStream t = symbolStream s := by unfold BlockFrame at h; rw [h]; rfl

end

/-- A run of the block alone has the frame of its steps (R51, R69). -/
theorem Reaches.blockFrame {s t : State} (hin : s.inputs = []) (h : Reaches s t) : BlockFrame s t := by
  obtain ⟨k, hk⟩ := h
  refine run_keeps (P := BlockFrame s) (fun u v hu huv => hu.trans ?_) (by unfold BlockFrame; rfl) hk
  exact (blockStep_move (step_block (hu.inputs.trans hin) ▸ huv)).frame

/-- Settles O59: TX_BYTE is one symbol, and completes with its last GO_IDLE. -/
theorem txByteRuns : Obligations.TxByteRuns := by
  intro s b g hinv hb hin hl hidle hfree hanswers
  obtain ⟨⟨sts, hst⟩, rds, hr⟩ := hanswers
  obtain ⟨-, hp, -⟩ := idle_of_inv hinv hb
  have he := exec_starts (i := .txByte) hb nofun
  obtain ⟨t, hrun, hframe, hchip, hlast, -, -, hw⟩ := reaches_symbol
    (s := { beginOp .txByte (latchOperands s) with symidx := 0 }) (d := s.argByte) hin hl rfl hidle hfree rfl hst hr
  rw [afterEndIdle_of_last g fun ho => by cases hframe.op.symm.trans ho] at hrun
  exact ⟨_, _, he, hrun.runsTo, hchip, Inv.rem_of_runsTo (exec_inv hinv he) hrun.runsTo, hframe.symidx, hlast,
    ((Reaches.blockFrame (by exact hin) hrun).result :), Wrote.fifoStream_eventsSince hw hp rfl⟩

end Sys2Proof.Machine
end

section
/-! PROOFS. TX_BUF run against a script of answers (43_spreader.md R167, R168): its symbols, one after another. -/

namespace Sys2Proof.Machine

/-- The next payload byte is fetched, and its symbol begins (R167). -/
theorem reaches_txSymbol {s : State} (hin : s.inputs = []) (hp : s.phase = .symFetch) (hstale : s.stale = [])
    (ha : admitted s.params (s.lAddr.toNat + s.symidx.toNat) = true) :
    Reaches s (txSymbol (Memory.read s.mem (s.lAddr.toNat + s.symidx.toNat)) s) := by
  refine .of_step ((step_block hin).trans ((blockStep_fetch hp).trans ?_))
  rw [symFetchStep, memRead_plain ha hstale]

/-- The wait between two symbols ends in the fetch of the next (R103, R167). -/
theorem reaches_symFetch {s : State} (hin : s.inputs = []) :
    ∃ n m, Reaches (enterSymWait s)
      { s with phase := .symFetch, waitLeft := n, draws := m, past := s.past ++ [.wait .jitter] } :=
  ⟨0, _, reaches_wait (s := enterSymWait s) hin rfl rfl⟩

/-- A symbol that is not the last, and the wait after it, lead to the fetch of the next payload byte (R167). -/
theorem reaches_nextSymbol {s : State} {b g : Byte} {sts : List (Option Byte)} {rds : List Bool}
    (hin : s.inputs = []) (hp : s.phase = .symFetch) (ho : s.op = some .txBuf) (hl : prnLoaded s = true)
    (hstale : s.stale = []) (hidle : b &&& s.params.idleMask = 0) (hfree : 0 < freeSpace s.params b)
    (hlt : s.symidx.toNat + 1 < s.lLen.toNat) (ha : admitted s.params (s.lAddr.toNat + s.symidx.toNat) = true)
    (hst : s.statuses = symbolAnswers (freeSpace s.params b) b s.params.endStatus g ++ sts)
    (hr : s.readies = List.replicate 1920 true ++ rds) :
    ∃ t, Reaches s t ∧ t.phase = .symFetch ∧ t.op = some .txBuf ∧ t.stale = [] ∧
      t.symidx.toNat = s.symidx.toNat + 1 ∧ t.statuses = sts ∧ t.readies = rds ∧
      Wrote s t (symbolStream s (Memory.read s.mem (s.lAddr.toNat + s.symidx.toNat))) := by
  obtain ⟨t, hrun, hframe, -, -, hsts, hrds, es, hpast, hes⟩ := reaches_symbol
    (d := Memory.read s.mem (s.lAddr.toNat + s.symidx.toNat)) hin hl (inSymbol_of_op ho) hidle hfree rfl hst hr
  have hidx : t.symidx = s.symidx := hframe.symidx
  have hlen : t.lLen = s.lLen := hframe.lLen
  rw [afterEndIdle_of_more g (hframe.op.trans ho) (by rw [hidx, hlen]; exact hlt)] at hrun
  obtain ⟨n, m, hwait⟩ := reaches_symFetch (s := { t with symidx := t.symidx + 1 }) (hframe.inputs.trans hin)
  refine ⟨_, (reaches_txSymbol hin hp hstale ha).trans (hrun.trans hwait), rfl, hframe.op.trans ho,
    hframe.stale.trans hstale, ?_, hsts, hrds, es ++ [.wait .jitter], ?_, ?_⟩
  · rw [← hidx]
    exact BitVec.toNat_add_of_lt (by rw [hidx]; exact hlt.trans s.lLen.isLt)
  · rw [← List.append_assoc, ← hpast]
  · rw [fifoStream_append, hes, fifoStream_wait, List.append_nil]

/-- The symbols of a payload still to come, each from its fetch to its last GO_IDLE (R167). -/
theorem runsTo_symbols {s : State} {b g : Byte} {sts : List (Option Byte)} {rds : List Bool} {m : Nat}
    (hin : s.inputs = []) (hp : s.phase = .symFetch) (ho : s.op = some .txBuf) (hl : prnLoaded s = true)
    (hstale : s.stale = []) (hidle : b &&& s.params.idleMask = 0) (hfree : 0 < freeSpace s.params b)
    (hm : s.symidx.toNat + (m + 1) = s.lLen.toNat)
    (ha : ∀ i, i < m + 1 → admitted s.params (s.lAddr.toNat + (s.symidx.toNat + i)) = true)
    (hst : s.statuses =
      (List.replicate (m + 1) (symbolAnswers (freeSpace s.params b) b s.params.endStatus g)).flatten ++ sts)
    (hr : s.readies = List.replicate (1920 * (m + 1)) true ++ rds) :
    ∃ t, runsTo s t ∧ t.symidx.toNat + 1 = s.lLen.toNat ∧
      Wrote s t ((List.range (m + 1)).flatMap fun i =>
        symbolStream s (Memory.read s.mem (s.lAddr.toNat + (s.symidx.toNat + i)))) := by
  induction m generalizing s with
  | zero =>
    obtain ⟨t, hrun, hframe, -, -, -, -, hw⟩ := reaches_symbol (d := Memory.read s.mem (s.lAddr.toNat + s.symidx.toNat))
      hin hl (inSymbol_of_op ho) hidle hfree rfl (by simpa using hst) hr
    have hidx : t.symidx = s.symidx := hframe.symidx
    have hlen : t.lLen = s.lLen := hframe.lLen
    rw [afterEndIdle_of_last g fun _ => by rw [hidx, hlen]; exact hm.ge] at hrun
    refine ⟨_, ((reaches_txSymbol hin hp hstale (ha 0 (by omega))).trans hrun).runsTo, hidx ▸ hm, ?_⟩
    rw [Nat.zero_add, List.range_one, List.flatMap_singleton]
    exact hw
  | succ m ih =>
    rw [List.replicate_succ, List.flatten_cons, List.append_assoc] at hst
    rw [Nat.mul_succ, Nat.add_comm, List.replicate_add, List.append_assoc] at hr
    obtain ⟨t, hrun, hphase, hop, hst', hidx, hsts, hrds, hw⟩ :=
      reaches_nextSymbol hin hp ho hl hstale hidle hfree (by omega) (ha 0 (by omega)) hst hr
    have hframe := hrun.blockFrame hin
    obtain ⟨u, hu, hend, hws⟩ := ih (s := t) (hframe.inputs.trans hin) hphase hop (hframe.prnLoaded.trans hl) hst'
      (hframe.params ▸ hidle) (hframe.params ▸ hfree) (by rw [hframe.lLen]; omega)
      (fun i hi => by
        rw [hframe.params, hframe.lAddr, hidx, Nat.add_assoc, Nat.add_comm 1 i]
        exact ha (i + 1) (by omega))
      (by rw [hframe.params]; exact hsts) hrds
    refine ⟨u, hrun.trans_runsTo hu, hend.trans (congrArg _ hframe.lLen), ?_⟩
    rw [hframe.symbolStream, hframe.mem, hframe.lAddr, hidx] at hws
    rw [List.range_succ_eq_map, List.flatMap_cons, List.flatMap_map]
    simp only [Nat.succ_eq_add_one, Nat.add_zero, Nat.add_assoc, Nat.add_comm 1] at hws ⊢
    exact hw.trans hws

/-- Settles O60: TX_BUF completes at once if its payload is empty, and with its last symbol otherwise. -/
theorem txBufRuns : Obligations.TxBufRuns := by
  intro s b g hinv hb hin hl hidle hfree hrange ⟨hstale, ha⟩ hanswers
  obtain ⟨⟨sts, hst⟩, rds, hr⟩ := hanswers
  obtain ⟨-, hp, -⟩ := idle_of_inv hinv hb
  have he := exec_starts (i := .txBuf) hb fun _ => rangeFails_eq_false (.inr hrange)
  by_cases hzero : s.argLen = 0
  · have hz : s.argLen.toNat = 0 := congrArg BitVec.toNat hzero
    have hstart : startOf .txBuf (latchOperands s) = complete (beginOp .txBuf (latchOperands s)) := if_pos hzero
    rw [hstart] at he
    refine ⟨_, _, he, ⟨0, rfl, rfl, rfl, rfl⟩, rfl, by omega, ?_⟩
    rw [hz]
    exact Wrote.fifoStream_eventsSince (t := complete _) ⟨[], (List.append_nil _).symm, rfl⟩ hp rfl
  · obtain ⟨m, hm⟩ : ∃ m, s.argLen.toNat = m + 1 :=
      Nat.exists_eq_succ_of_ne_zero fun e => hzero (BitVec.eq_of_toNat_eq e)
    have hstart : startOf .txBuf (latchOperands s) =
        { beginOp .txBuf (latchOperands s) with symidx := 0, phase := .symFetch } := if_neg hzero
    rw [hstart] at he
    rw [hm] at ha hst hr
    obtain ⟨t, hrun, hend, hw⟩ := runsTo_symbols (m := m)
      (s := { beginOp .txBuf (latchOperands s) with symidx := 0, phase := .symFetch }) hin rfl rfl hl hstale hidle hfree
      (by rw [← hm]; exact Nat.zero_add _) (fun i hi => (Nat.zero_add i).symm ▸ ha i hi) hst hr
    have hwrote : Wrote s t ((List.range (m + 1)).flatMap fun i =>
        symbolStream s (Memory.read s.mem (s.argAddr.toNat + (0 + i)))) := hw
    simp only [Nat.zero_add] at hwrote
    have ⟨k, hk, _, _, hidle⟩ := hrun
    exact ⟨_, t, he, hrun, (Reaches.blockFrame (by exact hin) ⟨k, hk⟩).result, fun _ => hend,
      hm ▸ hwrote.fifoStream_eventsSince hp hidle⟩

end Sys2Proof.Machine
end

section
/-! PROOFS. The free space a status reports bounds the refill burst after it (41_stream.md R112, R122): a refill burst begins
only in REFILL_QUERY, with at most the space just reported, and while it is in flight its bytes only change from still to send to
sent. -/

namespace Sys2Proof.Machine

/-- Outside REFILL_WRITE no refill burst is in flight. -/
theorem refillFitsInv_of_phase {s : State} (h : s.phase ≠ .refillWrite) : RefillFitsInv s := fun hp => absurd hp h

theorem refillDone_phase_ne_refillWrite (s : State) : (refillDone s).phase ≠ .refillWrite := by
  rw [refillDone_phase]
  repeat' split
  all_goals decide

/-- After a burst the refill loop goes on to its wait, or is over (R112). -/
theorem refillTest_phase_ne_refillWrite (s : State) : (refillTest s).phase ≠ .refillWrite := by
  rw [refillTest_phase]
  split
  · decide
  · exact refillDone_phase_ne_refillWrite s

/-- Of the answered strobes only the free-space query leads to REFILL_WRITE (R119). -/
theorem afterStrobe_phase_ne_refillWrite {p : Phase} (b : Byte) {s : State} (hp : p ≠ .refillQuery)
    (hs : s.phase ≠ .refillWrite) : (afterStrobe p b s).phase ≠ .refillWrite := by
  cases p with
  | refillQuery => exact absurd rfl hp
  | flushPoll =>
    simp only [afterStrobe, afterFlushPoll]
    split
    · split <;> nofun
    · exact hs
  | start =>
    simp only [afterStrobe, afterStart]
    split
    · exact refillDone_phase_ne_refillWrite s
    · nofun
  | settlePoll =>
    simp only [afterStrobe, afterSettlePoll]
    split
    · exact refillTest_phase_ne_refillWrite _
    · exact hs
  | endPoll =>
    simp only [afterStrobe, afterEndPoll]
    split
    · nofun
    · exact hs
  | endIdle =>
    simp only [afterStrobe, afterEndIdle]
    split <;> nofun
  | flushCmd | fifoFlush => nofun
  | idle | load | refillWait | refillWrite | symWait | symFetch => exact hs

/-- No operation begins with a refill burst; FEC_ENC does not touch the phase (R119). -/
theorem startOf_phase_ne_refillWrite {i : Instr} (hi : i ≠ .fecEnc) (s : State) :
    (startOf i s).phase ≠ .refillWrite := by
  cases i with
  | fecEnc => exact absurd rfl hi
  | flushIdle | rawTx | rawEnd | txByte => nofun
  | rawCont | rawZero => exact refillTest_phase_ne_refillWrite _
  | txBuf =>
    simp only [startOf, startTxBuf]
    split <;> nofun

/-- Dispatch touches no refill burst in flight. -/
theorem exec_refillFits {i : Instr} {s t : State} (h : RefillFitsInv s) (he : exec i s = .next t) : RefillFitsInv t := by
  obtain ⟨-, rfl⟩ | ⟨-, rfl⟩ | ⟨-, rfl⟩ := exec_cases he
  · exact h
  · exact h
  · by_cases hi : i = .fecEnc
    · subst hi
      exact h
    · exact refillFitsInv_of_phase (startOf_phase_ne_refillWrite hi _)

/-- The burst after the free-space query is the smaller of the space reported and what is left (R112). -/
theorem refillFits_afterRefillQuery {s : State} {b : Byte} (h : s.lastRStatus = b) :
    RefillFitsInv (afterRefillQuery b s) := by
  intro _
  show 0 + min (freeSpace s.params b) s.rem.toNat ≤ (s.lastRStatus &&& s.params.freeMask).toNat
  rw [Nat.zero_add, h]
  exact Nat.min_le_left _ _

/-- A transferred byte is one more sent and one less to send (R94). -/
theorem refillFits_byte {s s2 : State} {left : Nat} {script : List Bool} {n : Nat} {b : Byte} (h : RefillFitsInv s)
    (hl : s.burstLeft = left + 1) (ht : takeByte { s with issued := true, readies := script, draws := n } = .ok (b, s2)) :
    RefillFitsInv { s2 with burstLeft := left, burstSent := s2.burstSent ++ [b] } := by
  obtain ⟨m, src, rfl⟩ := takeByte_ok ht
  intro hp
  have hfit := h hp
  simp only [List.length_append, List.length_singleton]
  omega

/-- Every move of the block keeps the refill burst within the space reported (R112, R122). -/
theorem BlockMove.refillFits {s t : State} (hm : BlockMove s t) (h : RefillFitsInv s) : RefillFitsInv t := by
  cases hm with
  | answer hc =>
    by_cases hq : s.phase = .refillQuery
    · rw [hq]
      exact refillFits_afterRefillQuery rfl
    · have hw : s.phase ≠ .refillWrite := fun e => by rw [e] at hc; cases hc
      exact refillFitsInv_of_phase (afterStrobe_phase_ne_refillWrite _ hq hw)
  | byte _ hl ht => exact refillFits_byte h hl ht
  | close =>
    apply refillFitsInv_of_phase
    unfold afterBurst
    split
    · nofun
    · exact refillTest_phase_ne_refillWrite _
  | waitEnd =>
    apply refillFitsInv_of_phase
    unfold afterWait
    split <;> nofun
  | fetch => exact refillFitsInv_of_phase nofun
  | idle | hold | burstHold | tick => exact h

/-- From outside the block only reset touches a burst in flight, and it leaves none. -/
theorem InputMove.refillFits {s t : State} {x : Input} (hm : InputMove s x t) (h : RefillFitsInv s) : RefillFitsInv t := by
  cases hm with
  | block hb => exact (blockStep_move hb).refillFits h
  | dispatch _ he => exact exec_refillFits h he
  | reset => exact refillFitsInv_of_phase nofun
  | @prn _ w sel i =>
    obtain ⟨-, e⟩ | ⟨-, p, q, e⟩ := prnWrite_cases sel i w s <;> exact e ▸ h
  | @illegal _ e => cases e <;> exact h
  | txInit =>
    obtain ⟨r, e⟩ := hostTxInit_state s
    exact e ▸ h
  | read | poll | clear | argument | memWrite | init => exact h

/-- Settles O47: the moves of the block keep the bound, and so do those of the host and the platform. -/
theorem refillFitsReportedSpace : Obligations.RefillFitsReportedSpace := by
  intro s t h hstep
  obtain ⟨-, hm⟩ | ⟨x, rest, -, hm⟩ := step_move hstep
  · exact hm.refillFits h
  · exact hm.refillFits (s := { s with inputs := rest }) h

end Sys2Proof.Machine
end

section
/-! PROOFS. The end poll has no bound (41_stream.md R118, R124). -/

namespace Sys2Proof.Machine

/-- A status that is not END_STATUS leaves the block in the end poll, with one more finished NOP (R118). -/
theorem step_endPoll_of_ne {s : State} {b : Byte} {sts : List (Option Byte)} (hin : s.inputs = []) (hp : s.phase = .endPoll)
    (hst : s.statuses = some b :: sts) (hb : b ≠ s.params.endStatus) :
    step s = .next (s.answered .endPoll (nops s [b]) b sts) := by
  have hstep := step_answered (c := .nop) hin (by rw [hp]; rfl) hst
  rw [hp, afterStrobe, afterEndPoll_of_ne (by exact hb)] at hstep
  rw [hstep, State.answered, ← hp]
  rfl

/-- Settles O52: each status is one step, after which the poll stands where it stood. -/
theorem endPollHasNoBound : Obligations.EndPollHasNoBound := by
  intro s bs rest hin hp hst hne
  induction bs generalizing s with
  | nil => exact ⟨s, rfl, hp, rfl, rfl, (List.append_nil _).symm⟩
  | cons b bs ih =>
    have hstep := step_endPoll_of_ne hin hp hst (hne b List.mem_cons_self)
    obtain ⟨t, hrun, htp, htb, hto, hpast⟩ := ih (s.answered .endPoll (nops s [b]) b (bs.map some ++ rest)) hin rfl rfl
      fun a ha => hne a (List.mem_cons_of_mem b ha)
    exact ⟨t, (run_succ hstep bs.length).trans hrun, htp, htb, hto, hpast.trans (List.append_assoc _ _ _)⟩

end Sys2Proof.Machine
end

section
/-! PROOFS. The FEC encoder (42_fec.md R140, R141, R143, R145): `FecParity` bit by bit, its linearity over GF(2), the weights that
FecMinDist5 forces, and FEC_ENC at its dispatch. -/

namespace Sys2Proof.Machine

/-! Parity. -/

/-- The places where exactly one of two predicates holds are as many as the places of each together, up to an even number. -/
theorem countP_xor_mod_two {α : Type} (p q : α → Bool) (l : List α) :
    l.countP (fun a => p a ^^ q a) % 2 = (l.countP p + l.countP q) % 2 := by
  induction l with
  | nil => rfl
  | cons a l ih =>
    simp only [List.countP_cons]
    cases p a <;> cases q a <;> simp <;> omega

theorem popcount_xor_mod_two {n : Nat} (v w : BitVec n) : popcount (v ^^^ w) % 2 = (popcount v + popcount w) % 2 := by
  have hbits : (v ^^^ w).getLsbD = fun i => v.getLsbD i ^^ w.getLsbD i := funext fun _ => BitVec.getLsbD_xor
  rw [popcount, hbits]
  exact countP_xor_mod_two _ _ _

theorem parity_xor {n : Nat} (v w : BitVec n) : parity (v ^^^ w) = (parity v ^^ parity w) := by
  have h := popcount_xor_mod_two v w
  obtain hv | hv := Nat.mod_two_eq_zero_or_one (popcount v) <;>
    obtain hw | hw := Nat.mod_two_eq_zero_or_one (popcount w) <;>
    simp [parity, h, Nat.add_mod, hv, hw]

/-- The byte whose one bit is `j`, in the library's form. -/
theorem oneBit_eq_twoPow (j : Nat) : ((1 <<< j : Nat) : Byte) = BitVec.twoPow 8 j :=
  BitVec.eq_of_toNat_eq (by simp [Nat.one_shiftLeft])

theorem getLsbD_oneBit (j i : Nat) : ((1 <<< j : Nat) : Byte).getLsbD i = (decide (j < 8) && decide (j = i)) := by
  rw [oneBit_eq_twoPow, BitVec.getLsbD_twoPow]

theorem popcount_oneBit (j : Fin 8) : popcount (1 <<< j.val : Byte) = 1 := by
  revert j
  decide

/-- What a mask selects of a single-bit byte is that bit or nothing, so its parity is the mask's bit (R141). -/
theorem parity_oneBit_and (j : Fin 8) (m : Byte) : parity ((1 <<< j.val : Byte) &&& m) = m.getLsbD j.val := by
  have hand : (1 <<< j.val : Byte) &&& m = if m.getLsbD j.val then (1 <<< j.val : Byte) else 0 := by
    rw [oneBit_eq_twoPow, BitVec.and_comm, BitVec.and_twoPow]
    rfl
  rw [hand]
  cases m.getLsbD j.val with
  | false => rw [if_neg Bool.false_ne_true]; rfl
  | true => rw [if_pos rfl, parity, popcount_oneBit]; rfl

/-! `FecParity` bit by bit, and its linearity. -/

/-- Bit `i` of the parity byte is parity bit `i` (R140). -/
theorem getLsbD_fecParity (masks : Vector Byte 8) (d : Byte) (i : Fin 8) :
    (fecParity masks d).getLsbD i.val = parityBit masks d i := by
  unfold fecParity
  simp only [BitVec.getLsbD_append, BitVec.getLsbD_ofBool]
  match i with
  | 0 | 1 | 2 | 3 | 4 | 5 | 6 | 7 => simp

/-- Settles O20: parity bit `i` is the parity of what FEC_MASKS[i] selects. -/
theorem parityBitsFollowMasks : Obligations.ParityBitsFollowMasks :=
  getLsbD_fecParity

theorem parityBit_xor (masks : Vector Byte 8) (a b : Byte) (i : Fin 8) :
    parityBit masks (a ^^^ b) i = (parityBit masks a i ^^ parityBit masks b i) := by
  have hand : (a ^^^ b) &&& masks[i] = a &&& masks[i] ^^^ b &&& masks[i] :=
    BitVec.eq_of_getLsbD_eq fun n _ => by simp only [BitVec.getLsbD_and, BitVec.getLsbD_xor, Bool.and_xor_distrib_right]
  rw [parityBit, hand, parity_xor]
  rfl

/-- `FecParity` is additive, as each parity bit is (R141). -/
theorem fecParity_xor (masks : Vector Byte 8) (a b : Byte) :
    fecParity masks (a ^^^ b) = fecParity masks a ^^^ fecParity masks b := by
  have hbit (i : Fin 8) : (fecParity masks (a ^^^ b)).getLsbD i.val = (fecParity masks a ^^^ fecParity masks b).getLsbD i.val := by
    simp only [BitVec.getLsbD_xor, getLsbD_fecParity, parityBit_xor]
  exact BitVec.eq_of_getLsbD_eq fun i hi => hbit ⟨i, hi⟩

theorem fecParity_zero (masks : Vector Byte 8) : fecParity masks 0 = 0 := by
  have h := fecParity_xor masks 0 0
  simpa using h

theorem getLsbD_fecParity_oneBit (masks : Vector Byte 8) (i j : Fin 8) :
    (fecParity masks (1 <<< j.val)).getLsbD i.val = masks[i].getLsbD j.val := by
  rw [getLsbD_fecParity, parityBit, parity_oneBit_and]

/-- The XOR of the single-bit bytes at the one bits of `d` below `k`. -/
def xorOfOneBits (d : Byte) (k : Nat) : Byte :=
  (((List.range k).filter d.getLsbD).map (fun j => (1 <<< j : Byte))).foldl (· ^^^ ·) 0

theorem xorOfOneBits_succ (d : Byte) (k : Nat) :
    xorOfOneBits d (k + 1) = if d.getLsbD k then xorOfOneBits d k ^^^ 1 <<< k else xorOfOneBits d k := by
  simp only [xorOfOneBits, List.range_succ, List.filter_append]
  split <;> simp [*]

theorem getLsbD_xorOfOneBits_succ (d : Byte) (k i : Nat) :
    (xorOfOneBits d (k + 1)).getLsbD i = ((xorOfOneBits d k).getLsbD i ^^ (d.getLsbD k && decide (k = i))) := by
  rw [xorOfOneBits_succ]
  cases hd : d.getLsbD k with
  | false => simp
  | true => rw [if_pos rfl, BitVec.getLsbD_xor, getLsbD_oneBit, decide_eq_true (BitVec.lt_of_getLsbD hd)]

theorem getLsbD_xorOfOneBits (d : Byte) (k i : Nat) : (xorOfOneBits d k).getLsbD i = (decide (i < k) && d.getLsbD i) := by
  induction k with
  | zero => exact BitVec.getLsbD_zero
  | succ k ih =>
    rw [getLsbD_xorOfOneBits_succ, ih]
    obtain rfl | hne := eq_or_ne k i
    · simp
    · have hlt : i < k + 1 ↔ i < k := by omega
      simp only [hlt, decide_eq_false hne, Bool.and_false, Bool.xor_false]

/-- A byte is the XOR of its one bits. -/
theorem xorOfOneBits_eq (d : Byte) : xorOfOneBits d 8 = d :=
  BitVec.eq_of_getLsbD_eq fun i hi => by rw [getLsbD_xorOfOneBits, decide_eq_true hi, Bool.true_and]

/-- `FecParity` of an XOR of bytes is the XOR of their parity bytes (R141). -/
theorem fecParity_foldl_xor (masks : Vector Byte 8) (l : List Byte) :
    fecParity masks (l.foldl (· ^^^ ·) 0) = (l.map (fecParity masks)).foldl (· ^^^ ·) 0 := by
  have hhom := List.foldl_hom (fecParity masks) (g₁ := (· ^^^ ·)) (g₂ := fun p b => p ^^^ fecParity masks b) (l := l)
    (init := 0) fun a b => (fecParity_xor masks a b).symm
  rw [← hhom, fecParity_zero, List.foldl_map]

/-- `FecParity` is fixed by its values on the single-bit bytes (R141). -/
theorem fecParity_eq_xor_oneBits (masks : Vector Byte 8) (d : Byte) :
    fecParity masks d =
      (((List.range 8).filter d.getLsbD).map (fun j => fecParity masks (1 <<< j))).foldl (· ^^^ ·) 0 := by
  have h := fecParity_foldl_xor masks (((List.range 8).filter d.getLsbD).map (fun j => (1 <<< j : Byte)))
  rw [List.map_map, ← xorOfOneBits, xorOfOneBits_eq] at h
  exact h

/-- Settles O21: each parity bit is a parity, which is additive, and the sum of its one bits gives a byte. -/
theorem fecParityIsLinear : Obligations.FecParityIsLinear := fun masks =>
  ⟨fecParity_zero masks, fecParity_xor masks, fecParity_eq_xor_oneBits masks, getLsbD_fecParity_oneBit masks⟩

/-! The weights that FecMinDist5 forces. -/

/-- As many masks select data bit `j` as its single-bit byte has parity bits (R141). -/
theorem countP_masks_eq_popcount (masks : Vector Byte 8) (j : Fin 8) :
    (List.finRange 8).countP (fun i => masks[i].getLsbD j.val) = popcount (fecParity masks (1 <<< j.val)) := by
  rw [popcount, ← List.map_coe_finRange_eq_range, List.countP_map]
  exact congrArg (List.countP · _) (funext fun i => (getLsbD_fecParity_oneBit masks i j).symm)

theorem popcount_fecParity_oneBit {masks : Vector Byte 8} (h : FecMinDist5 masks) (j : Fin 8) :
    4 ≤ popcount (fecParity masks (1 <<< j.val)) := by
  have hne : (1 <<< j.val : Byte) ≠ 0 := fun h0 => absurd (h0 ▸ popcount_oneBit j : popcount (0 : Byte) = 1) (by decide)
  have hw := h _ hne
  rw [popcount_oneBit] at hw
  omega

/-- Settles O22: a single-bit byte has weight 1, so its codeword takes the other 4 from the parity byte (R145). -/
theorem minDistanceForcesParityWeight : Obligations.MinDistanceForcesParityWeight := fun masks h j =>
  ⟨popcount_fecParity_oneBit h j, (countP_masks_eq_popcount masks j).symm ▸ popcount_fecParity_oneBit h j⟩

/-! FEC_ENC at its dispatch. -/

/-- FEC_ENC uses no host memory, so while idle it encodes the latched byte (R143). -/
theorem exec_fecEnc {s : State} (hb : s.busy = false) : exec .fecEnc s = .next (encodeLatchedByte (latchOperands s)) :=
  exec_starts hb nofun

/-- Repeating FEC_ENC changes nothing: it encodes the same ARG_BYTE again (R143). -/
theorem exec_fecEnc_again {s t : State} (hb : s.busy = false) (h : exec .fecEnc s = .next t) : exec .fecEnc t = .next t := by
  rw [exec_fecEnc hb] at h
  cases h
  exact exec_fecEnc hb

/-- Settles O9: the dispatch rules give the states, and the linearity of `FecParity` its corner cases. -/
theorem fecEncWritesResult : Obligations.FecEncWritesResult :=
  ⟨fun _ hb => exec_fecEnc hb, fun _ hb => exec_busy .fecEnc hb, fecParity_zero,
    fun masks => fecParity_eq_xor_oneBits masks 0xFF, fun _ _ hb h => exec_fecEnc_again hb h, by decide⟩

/-- Settles O16: FEC_ENC is dropped, or it latches its operands and encodes. -/
theorem fecEncFrame : Obligations.FecEncFrame := by
  intro s t he
  have ht : t = { s with ovr := t.ovr, lByte := t.lByte, lLen := t.lLen, lAddr := t.lAddr, result := t.result } := by
    obtain hb | hb := Bool.eq_false_or_eq_true s.busy
    · rw [exec_busy .fecEnc hb] at he
      cases he
      rfl
    · rw [exec_fecEnc hb] at he
      cases he
      rfl
  exact ⟨ht, fun a => congrArg (fun u => Memory.read u.mem a) ht⟩

end Sys2Proof.Machine
end

section
/-! PROOFS. The two forms of the chip map (43_spreader.md R162): the chip word is the sum of its fields. -/

namespace Sys2Proof.Machine

/-- The chip word is the sum of preamble and postamble, the parity byte and the data byte, each at its place (R162). -/
theorem chipWord_setWidth (masks : Vector Byte 8) (d : Byte) :
    (chipWord masks d).setWidth 32 =
      0x39000058#32 ||| (fecParity masks d).setWidth 32 <<< 15 ||| d.setWidth 32 <<< 7 := by
  have hword : (chipWord masks d).setWidth 32 =
      (0b1110010#7 ++ fecParity masks d ++ d ++ 0b1011000#7 : BitVec (7 + 8 + 8 + 7)).setWidth 32 := rfl
  have hframe : (0b1110010#7).setWidth 32 <<< (8 + 8 + 7) ||| (0b1011000#7).setWidth 32 = 0x39000058#32 := by decide
  have hsum (a p b c : Word) : a ||| p ||| b ||| c = a ||| c ||| p ||| b := by ac_rfl
  simp only [hword, BitVec.setWidth_append_eq_shiftLeft_setWidth_or, BitVec.shiftLeft_or_distrib, ← BitVec.shiftLeft_add]
  rw [hsum, hframe]

/-- Settles O23: chip `j` is bit `29 − j` of the chip word, and each field of the word stands at its place. -/
theorem chipWordHoldsSymbolChips : Obligations.ChipWordHoldsSymbolChips := fun masks d =>
  ⟨symbolChips_eq_chipWord masks d, chipWord_setWidth masks d⟩

end Sys2Proof.Machine
end

section
/-! PROOFS. A symbol's FIFO-write stream, step by step (43_spreader.md R160, R164, R165): what is written is the stream up to the
place where the chip and its source stand, and only a byte of a burst moves that place. -/

namespace Sys2Proof.Machine

/-! The stream by places. -/

/-- Each chip of a list has its pattern at its own 64 places of their stream (R165). -/
theorem flatMap_patternBytes_getElem? (s : State) (chips : List Bool) (j : Nat) {i : Nat} (hi : i < 64) :
    (chips.flatMap (patternBytes s))[64 * j + i]? = chips[j]?.bind fun c => (patternBytes s c)[i]? := by
  induction chips generalizing j with
  | nil => rfl
  | cons c cs ih =>
    rw [List.flatMap_cons]
    cases j with
    | zero => simp [List.getElem?_append_left, hi]
    | succ j =>
      rw [List.getElem?_append_right (by rw [patternBytes_length]; omega), patternBytes_length,
        show 64 * (j + 1) + i - 64 = 64 * j + i by omega, ih, List.getElem?_cons_succ]

/-- Byte `i` of chip `j` stands in a symbol's stream `64 j` places further on (R162, R165). -/
theorem symbolStream_getElem? {s : State} {j i : Nat} {b : Byte} (hcw : s.cw = chipWord s.params.fecMasks s.sb)
    (hj : j < 30) (hb : (s.prn (chipBit s j))[i]? = some (some b)) : (symbolStream s s.sb)[64 * j + i]? = some b := by
  obtain ⟨hi, -⟩ := Vector.getElem?_eq_some_iff.mp hb
  have hbyte : (patternBytes s (chipBit s j))[i]? = some b := by rw [← List.head?_drop, patternBytes_drop hb, List.head?_cons]
  rw [symbolStream, flatMap_patternBytes_getElem? s _ j hi, symbolChips_eq_chipWord, List.getElem?_map,
    List.getElem?_range hj, ← hcw]
  exact hbyte

/-- A byte taken from a pattern is the one written there (R56). -/
theorem takeByte_prn_ok {s s1 : State} {sel : Bool} {i : Nat} {b : Byte} (hsrc : s.src = .prn sel i)
    (h : takeByte s = .ok (b, s1)) : (s.prn sel)[i]? = some (some b) := by
  simp only [takeByte, hsrc] at h
  split at h
  · rename_i hread
    obtain ⟨rfl, -⟩ := Prod.mk.inj (Except.ok.inj h)
    exact prnRead_ok hread
  · cases h

/-- In a symbol 64 bytes make a StreamStart or a refill loop (R164). -/
theorem streamLen_of_symbol {s : State} (h : s.inSymbol = true) : streamLen s = 64 := if_pos h

/-- How many bytes of its stream a symbol has written where its chip and the chip's source stand (R164, R165). -/
def symbolPlace (s : State) : Nat := 64 * (s.chip.val + 1) + s.burstSent.length - s.rem.toNat

/-- The bytes in progress are those of the burst in flight (R94). -/
theorem Inv.fifoStream_openEvent {s : State} (h : Inv s) : fifoStream s.openEvent = s.burstSent := by
  obtain ⟨-, hburst, -⟩ := h
  by_cases hp : s.phase.bursting = true
  · obtain ⟨-, -, hunissued⟩ := hburst.inBurst hp
    rw [openEvent_burst hp]
    cases hi : s.issued with
    | true => exact fifoStream_burst _
    | false => exact (hunissued hi).symm
  · obtain ⟨-, hsent⟩ := hburst.quiet (Bool.eq_false_iff.mpr hp)
    rw [hsent]
    obtain hq | hq | ⟨c, hq⟩ | hq | ⟨kind, hq⟩ := s.phase.kinds
    · rw [openEvent_idle hq]; rfl
    · rw [openEvent_fetch hq]; rfl
    · rw [openEvent_strobe hq]
      split <;> rfl
    · exact absurd hq hp
    · rw [openEvent_wait hq]; rfl

theorem Inv.fifoStream_eventsSince {s : State} {base : Nat} (h : Inv s) (hbase : base ≤ s.past.length) :
    fifoStream (eventsSince base s) = fifoStream (s.past.drop base) ++ s.burstSent := by
  rw [eventsSince, State.history, List.drop_append_of_le_length hbase, fifoStream_append, h.fifoStream_openEvent]

/-! The stream so far. -/

/-- Of the symbol's stream `whole` the symbol has written, since the history had `base` events, the bytes up to its place. -/
def SymbolWritten (base : Nat) (whole : List Byte) (s : State) : Prop :=
  symbolStream s s.sb = whole ∧ base ≤ s.past.length ∧
    fifoStream (s.past.drop base) ++ s.burstSent = whole.take (symbolPlace s)

theorem SymbolStreamInv.written {base : Nat} {s : State} (h : SymbolStreamInv base s) :
    SymbolWritten base (symbolStream s s.sb) s := by
  obtain ⟨hinv, -, -, -, hbase, hw⟩ := h
  exact ⟨rfl, hbase, hinv.fifoStream_eventsSince hbase ▸ hw⟩

theorem SymbolWritten.streamInv {base : Nat} {whole : List Byte} {s : State} (h : SymbolWritten base whole s) (hinv : Inv s)
    (hs : s.inSymbol = true) (hb : s.phase.between = false) (hl : prnLoaded s = true) : SymbolStreamInv base s := by
  obtain ⟨rfl, hbase, hw⟩ := h
  exact ⟨hinv, hs, hb, hl, hbase, (hinv.fifoStream_eventsSince hbase).trans hw⟩

/-- The two states stand at the same place of the symbol, with the same bytes in flight. -/
def SamePlace (s t : State) : Prop := t.burstSent = s.burstSent ∧ symbolPlace t = symbolPlace s

/-- Where the sequencing goes on at the same place, the same is written. -/
theorem SymbolWritten.same {base : Nat} {whole : List Byte} {s t : State} (h : SymbolWritten base whole s)
    (hframe : SequencingFrame s t) (hplace : SamePlace s t) : SymbolWritten base whole t := by
  obtain ⟨hwhole, hbase, hw⟩ := h
  obtain ⟨hsent, hat⟩ := hplace
  have hpast : t.past = s.past := by rw [hframe]
  refine ⟨?_, hpast ▸ hbase, ?_⟩
  · rw [hframe]; exact hwhole
  · rw [hpast, hsent, hat, hw]

/-- An event that writes nothing leaves the stream as it is. -/
theorem SymbolWritten.record {base : Nat} {whole : List Byte} {s : State} {e : PortEvent} (h : SymbolWritten base whole s)
    (he : fifoStream [e] = []) : SymbolWritten base whole (record e s) := by
  obtain ⟨hwhole, hbase, hw⟩ := h
  refine ⟨hwhole, by simp; omega, ?_⟩
  rw [record_past, List.drop_append_of_le_length hbase, fifoStream_append, he, List.append_nil]
  exact hw

/-- A burst that is closed has written its bytes, and they are off what is left of the chip. -/
theorem SymbolWritten.closeBurst {base : Nat} {whole : List Byte} {s : State} (h : SymbolWritten base whole s)
    (hle : s.burstSent.length ≤ s.rem.toNat) : SymbolWritten base whole (closeBurst s) := by
  obtain ⟨hwhole, hbase, hw⟩ := h
  have hplace : symbolPlace (Machine.closeBurst s) = symbolPlace s := by
    simp only [symbolPlace, closeBurst_rem_toNat hle, closeBurst_chip, closeBurst_burstSent, List.length_nil]
    omega
  refine ⟨hwhole, by simp; omega, ?_⟩
  rw [hplace, closeBurst_past, List.drop_append_of_le_length hbase, fifoStream_append, fifoStream_burst,
    closeBurst_burstSent, List.append_nil]
  exact hw

/-- A byte that is transferred is the one at the symbol's place, which moves one further. -/
theorem SymbolWritten.byte {base : Nat} {whole : List Byte} {s s2 : State} {left : Nat} {script : List Bool} {n : Nat} {b : Byte}
    (h : SymbolWritten base whole s) (hsrc : SourceInv s) (hs : s.inSymbol = true) (hb : s.phase.between = false)
    (ht : takeByte { s with issued := true, readies := script, draws := n } = .ok (b, s2)) :
    SymbolWritten base whole { s2 with burstLeft := left, burstSent := s2.burstSent ++ [b] } := by
  obtain ⟨rfl, hbase, hw⟩ := h
  obtain ⟨hcw, hrem, i, hsrc, hpos⟩ := hsrc.symbol hs hb
  have hread := takeByte_prn_ok (s := { s with issued := true, readies := script, draws := n }) hsrc ht
  have hplace : symbolPlace s = 64 * s.chip.val + i := by unfold symbolPlace; omega
  have hnext : symbolPlace { s with burstSent := s.burstSent ++ [b] } = symbolPlace s + 1 := by
    simp only [symbolPlace, List.length_append, List.length_singleton]
    omega
  have hbyte : (symbolStream s s.sb)[symbolPlace s]? = some b := hplace ▸ symbolStream_getElem? hcw s.chip.isLt hread
  obtain ⟨m, rfl⟩ := takeByte_advance ht
  refine ⟨rfl, hbase, ?_⟩
  calc fifoStream (s.past.drop base) ++ (s.burstSent ++ [b])
      = (symbolStream s s.sb).take (symbolPlace s) ++ [b] := by rw [← List.append_assoc, hw]
    _ = (symbolStream s s.sb).take (symbolPlace s + 1) := by rw [List.take_add_one, hbyte, Option.toList_some]
    _ = (symbolStream s s.sb).take (symbolPlace { s with burstSent := s.burstSent ++ [b] }) := by rw [hnext]

/-! The symbol goes on at the same place. -/

/-- From a chip that is all out the symbol goes on at its next chip, of which nothing is out, or to its end (R164). -/
theorem samePlace_refillDone {s : State} (hs : s.inSymbol = true) (hrem : s.rem = 0) : SamePlace s (refillDone s) := by
  rw [refillDone_of_symbol hs, nextChip]
  split
  · have hzero : s.rem.toNat = 0 := by rw [hrem]; rfl
    refine ⟨rfl, ?_⟩
    show 64 * (s.chip.val + 1 + 1) + s.burstSent.length - 64 = 64 * (s.chip.val + 1) + s.burstSent.length - s.rem.toNat
    omega
  · exact ⟨rfl, rfl⟩

theorem samePlace_refillTest {s : State} (hs : s.inSymbol = true) : SamePlace s (refillTest s) := by
  unfold refillTest
  split
  · exact samePlace_refillDone hs ‹_›
  · exact ⟨rfl, rfl⟩

theorem samePlace_afterBurst {s : State} {p : Phase} (hs : s.inSymbol = true) : SamePlace s (afterBurst p s) := by
  unfold afterBurst
  split
  · exact ⟨rfl, rfl⟩
  · exact samePlace_refillTest hs

/-- A burst begins with nothing of it transferred. -/
theorem samePlace_enterBurst {s : State} {p : Phase} {k : Nat} (h : s.burstSent = []) : SamePlace s (enterBurst p k s) :=
  ⟨h.symm, by simp [symbolPlace, h]⟩

/-- After a strobe no byte of the symbol has moved (R119). -/
theorem samePlace_afterStrobe {s : State} (b : Byte) (h : Inv s) (hs : s.inSymbol = true) :
    SamePlace s (afterStrobe s.phase b s) := by
  have hsent (hp : s.phase.bursting = false) : s.burstSent = [] := by
    obtain ⟨-, hburst, -⟩ := h
    exact (hburst.quiet hp).2
  cases hp : s.phase with
  | flushPoll =>
    simp only [afterStrobe, afterFlushPoll]
    split
    · split <;> exact ⟨rfl, rfl⟩
    · exact ⟨rfl, rfl⟩
  | fifoFlush | refillQuery => exact samePlace_enterBurst (hsent (by rw [hp]; rfl))
  | start =>
    obtain ⟨hrem, -⟩ := h.progressAt hp
    rw [streamLen_of_symbol hs] at hrem
    rw [afterStrobe, afterStart_of_short b (streamLen_of_symbol hs).le]
    exact samePlace_refillDone hs (BitVec.eq_of_toNat_eq hrem)
  | settlePoll =>
    simp only [afterStrobe, afterSettlePoll, h.refillLoop_after_settle hp]
    split <;> exact ⟨rfl, rfl⟩
  | endPoll =>
    simp only [afterStrobe, afterEndPoll]
    split <;> exact ⟨rfl, rfl⟩
  | endIdle =>
    simp only [afterStrobe, afterEndIdle]
    split <;> exact ⟨rfl, rfl⟩
  | flushCmd | idle | load | refillWait | refillWrite | symWait | symFetch => exact ⟨rfl, rfl⟩

/-! The moves of the block inside a symbol. -/

/-- Every move of the block inside a symbol keeps what is written the stream up to the symbol's place. -/
theorem BlockMove.symbolWritten {base : Nat} {whole : List Byte} {s t : State} (hm : BlockMove s t) (hinv : Inv s)
    (hs : s.inSymbol = true) (hb : s.phase.between = false) (h : SymbolWritten base whole s) : SymbolWritten base whole t := by
  have ⟨_, hburst, hsrc, _⟩ := hinv
  cases hm with
  | idle | hold | burstHold | tick => exact h
  | @answer c b script n hp =>
    have hrec : SymbolWritten base whole (answerStrobe c b { s with issued := true, statuses := script, draws := n }) :=
      h.record (fifoStream_strobe _ _)
    exact hrec.same (sequencingFrame_afterStrobe _ _ _) (samePlace_afterStrobe b (hinv.answerStrobe hp) hs)
  | byte _ _ ht => exact h.byte hsrc hs hb ht
  | close hp =>
    obtain ⟨-, hle, -⟩ := hburst.inBurst hp
    exact (h.closeBurst (by omega)).same (sequencingFrame_afterBurst _ _) (samePlace_afterBurst hs)
  | waitEnd => exact (h.record (fifoStream_wait _)).same rfl ⟨rfl, rfl⟩
  | fetch hp => rw [hp] at hb; cases hb

/-- A symbol that begins has written nothing (R164). -/
theorem symbolStreamInv_txSymbol {s : State} {d : Byte} (hinv : Inv (txSymbol d s)) (hs : s.inSymbol = true)
    (hl : prnLoaded s = true) (hsent : s.burstSent = []) : SymbolStreamInv s.past.length (txSymbol d s) := by
  have hw : SymbolWritten s.past.length (symbolStream s d) (txSymbol d s) := by
    refine ⟨rfl, Nat.le_refl _, ?_⟩
    have hplace : symbolPlace (txSymbol d s) = 0 := by simp [symbolPlace, hsent]
    rw [hplace, txSymbol_burstSent, hsent]
    exact congrArg (fifoStream · ++ []) (List.drop_length (l := s.past))
  exact hw.streamInv hinv hs rfl hl

/-- Inside a symbol the transition table leads on, or out of END_IDLE (R119). -/
theorem phaseAfter_of_symbol {s : State} (b : Byte) (left : Half) (hs : s.inSymbol = true) (hb : s.phase.between = false)
    (hrun : s.phase ≠ .idle) :
    (phaseAfter s b left ≠ .idle ∧ (phaseAfter s b left).between = false) ∨
      (s.phase = .endIdle ∧ (phaseAfter s b left = .idle ∨ phaseAfter s b left = .symWait)) := by
  have hne : s.op ≠ some .flushIdle := by
    obtain ho | ho := (inSymbol_iff s).mp hs <;> rw [ho] <;> nofun
  cases hp : s.phase with
  | idle => exact absurd hp hrun
  | symWait | symFetch => rw [hp] at hb; cases hb
  | endIdle =>
    right
    simp only [phaseAfter, hp]
    split
    · exact ⟨trivial, .inr rfl⟩
    · exact ⟨trivial, .inl rfl⟩
  | flushCmd | fifoFlush | load | refillWait | refillQuery => left; simp [phaseAfter, hp, Phase.between]
  | flushPoll =>
    left
    simp only [phaseAfter, hp, hne, if_false]
    split <;> exact ⟨nofun, rfl⟩
  | start =>
    left
    simp [phaseAfter, hp, streamLen_of_symbol hs, hs, Config.fifoCap, Phase.between]
  | settlePoll | endPoll =>
    left
    simp only [phaseAfter, hp]
    split <;> exact ⟨nofun, rfl⟩
  | refillWrite =>
    left
    simp only [phaseAfter, hp, hs]
    split
    · exact ⟨nofun, rfl⟩
    · simp only [if_true]
      split <;> exact ⟨nofun, rfl⟩

/-- No operation has phase IDLE among its phases (R119). -/
theorem SequenceInv.phase_ne_idle {s : State} {i : Instr} (h : SequenceInv s) (ho : s.op = some i) : s.phase ≠ .idle := by
  simp only [SequenceInv, ho] at h
  obtain ⟨-, hphase⟩ := h
  intro hp
  rw [hp] at hphase
  cases i <;> cases hphase

/-- A move of the block stays inside the symbol, or it is one out of END_IDLE (R119, R164). -/
theorem step_of_symbol {s t : State} (hinv : Inv s) (hs : s.inSymbol = true) (hb : s.phase.between = false)
    (hin : s.inputs = []) (hstep : step s = .next t) :
    (t.inSymbol = true ∧ t.phase.between = false) ∨ (s.phase = .endIdle ∧ (t.phase = .idle ∨ t.phase = .symWait)) := by
  have hm := blockStep_move (step_block hin ▸ hstep)
  have hrun : s.phase ≠ .idle := by
    obtain ⟨hsq, -⟩ := hinv
    obtain ho | ho := (inSymbol_iff s).mp hs <;> exact hsq.phase_ne_idle ho
  have hphase : (t.phase ≠ .idle ∧ t.phase.between = false) ∨
      (s.phase = .endIdle ∧ (t.phase = .idle ∨ t.phase = .symWait)) := by
    obtain ⟨hsame, -⟩ | htable := controllerFollowsPhaseTable s t hinv hin hstep
    · exact .inl (hsame ▸ ⟨hrun, hb⟩)
    · exact htable ▸ phaseAfter_of_symbol _ _ hs hb hrun
  refine hphase.imp_left fun ⟨hne, hbet⟩ => ⟨?_, hbet⟩
  obtain ⟨hsq, -⟩ := hm.inv hinv
  obtain ⟨i, ho, -⟩ := hsq.running hne
  obtain ⟨hop, -⟩ | ⟨hnone, -⟩ := hm.operationStaysOrEnds
  · rw [State.inSymbol, hop]
    exact hs
  · cases hnone.symm.trans ho

/-- A strobe that holds or is answered leaves the symbol at its place (R92, R119). -/
theorem samePlace_of_strobe {s t : State} {c : RadioCommand} (hinv : Inv s) (hs : s.inSymbol = true) (hin : s.inputs = [])
    (hp : s.phase.command = some c) (hstep : step s = .next t) : SamePlace s t := by
  rw [step_strobe hin hp] at hstep
  obtain ⟨script, n, rfl | ⟨b, rfl⟩⟩ := strobeStep_next hstep
  · exact ⟨rfl, rfl⟩
  · exact samePlace_afterStrobe b (hinv.answerStrobe hp) hs

/-- In END_IDLE the symbol's place is the end of its stream (R164, R165). -/
theorem symbolPlace_endIdle {s : State} (hinv : Inv s) (hs : s.inSymbol = true) (hp : s.phase = .endIdle) :
    symbolPlace s = 1920 := by
  obtain ⟨hrem, hchip⟩ := hinv.progressAt hp
  obtain ⟨-, hburst, -⟩ := hinv
  obtain ⟨-, hsent⟩ := hburst.quiet (by rw [hp]; rfl)
  simp [symbolPlace, hrem, hchip hs, hsent]

/-- At the end of its stream a symbol has written all of it (R165). -/
theorem SymbolWritten.all {base : Nat} {whole : List Byte} {s : State} (h : SymbolWritten base whole s) (hinv : Inv s)
    (hend : symbolPlace s = 1920) : fifoStream (eventsSince base s) = whole := by
  obtain ⟨rfl, hbase, hw⟩ := h
  obtain ⟨hlen, -⟩ := symbolStreamFrame s s.sb
  rw [hinv.fifoStream_eventsSince hbase, hw, hend, ← hlen, List.take_length]

/-- A payload byte that is fetched begins its symbol (R167). -/
theorem symFetchStep_next {s t : State} (h : symFetchStep s = .next t) : ∃ d n, t = txSymbol d { s with draws := n } := by
  rw [symFetchStep] at h
  split at h
  · rename_i hread
    obtain ⟨-, ⟨n, rfl⟩, -⟩ := memRead_ok hread
    cases h
    exact ⟨_, n, rfl⟩
  · cases h

/-- Settles O58: a symbol begins with nothing written, its moves keep what is written the stream up to its place, and
END_IDLE, its one way out, is at the end of the stream. -/
theorem symbolStreamInOrder : Obligations.SymbolStreamInOrder := by
  refine ⟨fun s t hinv hb hl he => ?_, fun s t hinv hin hp hl hstep => ?_, fun base s t h hin hstep => ?_⟩
  · obtain ⟨-, hidle, -, -, hsent, -⟩ := idle_of_inv hinv hb
    have hinv' := exec_inv hinv he
    rw [exec_starts (i := .txByte) hb nofun] at he
    cases he
    rw [history_idle hidle]
    exact symbolStreamInv_txSymbol (s := { beginOp .txByte (latchOperands s) with symidx := 0 }) hinv' rfl hl hsent
  · have ⟨hsq, hburst, _⟩ := hinv
    obtain ⟨i, ho, -, hphase⟩ := hsq.running (by rw [hp]; decide)
    obtain ⟨-, hsent⟩ := hburst.quiet (by rw [hp]; rfl)
    have hinv' := stepKeepsControllerInvariant s t hinv hstep
    rw [step_block hin, blockStep_fetch hp] at hstep
    obtain ⟨d, n, rfl⟩ := symFetchStep_next hstep
    rw [State.history, openEvent_fetch hp, List.append_nil]
    exact symbolStreamInv_txSymbol (s := { s with draws := n }) hinv'
      ((inSymbol_of_op ho).trans (phaseOf_symFetch (hp ▸ hphase))) hl hsent
  · have ⟨hinv, hs, hb, hl, _⟩ := h
    have hm := blockStep_move (step_block hin ▸ hstep)
    have hw := hm.symbolWritten hinv hs hb h.written
    obtain ⟨hs', hb'⟩ | ⟨hp, hexit⟩ := step_of_symbol hinv hs hb hin hstep
    · exact .inl (hw.streamInv (hm.inv hinv) hs' hb' (hm.frame.prnLoaded.trans hl))
    · obtain ⟨-, hplace⟩ := samePlace_of_strobe hinv hs hin (c := .goIdle) (by rw [hp]; rfl) hstep
      exact .inr ⟨hp, hexit, hw.all (hm.inv hinv) (hplace.trans (symbolPlace_endIdle hinv hs hp))⟩

end Sys2Proof.Machine
end

section
/-! PROOFS. The dispatch errors (60_exceptions.md R181 to R184): which writes raise ILL, OVR and RANGE, and that an error raised
changes nothing besides its flag and, for RANGE, the latches. -/

namespace Sys2Proof.Machine

/-! Illegal opcodes. -/

/-- The opcode of every operation is in the opcode map (R71). -/
theorem legalOpcodes_contains_opcode (i : Instr) : legalOpcodes.contains i.opcode = true := by
  cases i <;> rfl

/-- A word whose OPC is not in the opcode map is refused by the decoder (R74). -/
theorem decode_illegal {w : Word} (h : legalOpcodes.contains (opcodeOf w) = false) :
    decode w = .error (.illegalOpcode (opcodeOf w)) := by
  obtain ⟨i, hok⟩ | hill := decodeOpcode_total (opcodeOf w)
  · rw [opcodeOf_of_decode hok, legalOpcodes_contains_opcode] at h
    cases h
  · exact hill

/-- An illegal word written to CMD sets OVR while busy and ILL while idle (R181, R183, R186). -/
theorem cmdWrite_illegal {w : Word} {r : Reject} (h : decode w = .error r) (s : State) :
    cmdWrite w s = .next (raiseError (if s.busy then .ovr else .ill) s) := by
  rw [cmdWrite, h]

/-- Settles O6: offset 0 is CMD, and the decoder refuses the word. -/
theorem illegalOpcodeSetsIll : Obligations.IllegalOpcodeSetsIll := by
  intro s w rest hin hb hill
  rw [step_write hin rfl]
  show cmdWrite w _ = _
  rw [cmdWrite_illegal (decode_illegal hill), if_neg (ne_true_of_eq_false hb)]
  rfl

/-! Writes while busy. -/

/-- While busy a word written to CMD is dropped with OVR, whether it names an operation or not (R183, R186). -/
theorem cmdWrite_busy {s : State} (w : Word) (hb : s.busy = true) : cmdWrite w s = .next { s with ovr := true } := by
  cases hd : decode w with
  | ok i => rw [cmdWrite, hd]; exact exec_busy i hb
  | error r => rw [cmdWrite_illegal hd, if_pos hb]; rfl

/-- Every offset in [0x100, 0x300) names a PRN byte (R23). -/
theorem prnRegister_inside {off : Nat} (hlo : 0x100 ≤ off) (hhi : off < 0x300) :
    ∃ sel i, prnRegister off = some (sel, i) := by
  by_cases h : off < 0x200
  · exact ⟨false, (off - 0x100) / 4, if_pos ⟨hlo, h⟩⟩
  · exact ⟨true, (off - 0x200) / 4, (if_neg fun hc => h hc.2).trans (if_pos ⟨not_lt.mp h, hhi⟩)⟩

/-- While busy a write to a PRN byte is dropped with OVR (R33, R183). -/
theorem regWrite_prn_busy {off : Nat} {s : State} (w : Word) (hb : s.busy = true) (hlo : 0x100 ≤ off) (hhi : off < 0x300) :
    regWrite off w s = .next { s with ovr := true } := by
  obtain ⟨sel, i, hreg⟩ := prnRegister_inside hlo hhi
  rw [regWrite_prn hreg, prnWrite, if_pos hb, raiseError]

/-- Settles O7: the writes to CMD and to the pattern memories look at BUSY, and the other registers' writes do not. -/
theorem writesWhileBusy : Obligations.WritesWhileBusy := by
  refine ⟨fun i s hb => exec_busy i hb, fun s off w rest hin hb => ⟨?_, fun ha hlo hhi => ?_, ?_, ?_, ?_, ?_⟩⟩
  · rintro rfl
    exact (step_write hin rfl).trans (cmdWrite_busy w hb)
  · exact (step_write hin ha).trans (regWrite_prn_busy w hb hlo hhi)
  all_goals
    rintro rfl
    exact step_write hin rfl

/-! The range check. -/

/-- A range of at least one byte that ends past the last address leaves the address space (R184). -/
theorem rangeFails_eq_true {addr : Word} {len : Half} (hpos : 0 < len.toNat) (hend : 2 ^ 32 < addr.toNat + len.toNat) :
    rangeFails addr len = true := by
  rw [rangeFails, Config.hostSpace, decide_eq_true hpos, decide_eq_true hend, Bool.and_self]

/-- An operation that is range-checked and fails the check latches its operands, sets RANGE and does not start (R184). -/
theorem exec_range {i : Instr} {s : State} (hb : s.busy = false) (hu : usesHostMemory i = true)
    (hr : rangeFails s.argAddr s.argLen = true) : exec i s = .next { latchOperands s with range := true } := by
  rw [exec_eq, dispatch_range hb hu hr]

/-- An operation that starts leaves RANGE as it was (R182). -/
theorem exec_starts_range {i : Instr} {s : State} (hb : s.busy = false)
    (hr : usesHostMemory i = true → rangeFails s.argAddr s.argLen = false) :
    ∃ t, exec i s = .next t ∧ t.range = s.range := by
  obtain ⟨-, -, -, hrange⟩ := startOf_registers i (latchOperands s)
  exact ⟨_, exec_starts hb hr, hrange⟩

/-- Settles O8: the check binds the three operations on host memory and sets RANGE where it fails; every other dispatch starts
its operation. -/
theorem rangeErrorAtDispatch : Obligations.RangeErrorAtDispatch := by
  refine fun s hb => ⟨fun hpos hend i hi => ?_, fun hfits i _ => ?_, fun i hi => ?_⟩
  · have hu : usesHostMemory i = true := by obtain rfl | rfl | rfl := hi <;> rfl
    exact exec_range hb hu (rangeFails_eq_true hpos hend)
  · exact exec_starts_range hb fun _ => rangeFails_eq_false hfits
  · have hu : usesHostMemory i = false := by obtain rfl | rfl | rfl | rfl | rfl := hi <;> rfl
    exact exec_starts_range hb fun hc => absurd hc (ne_true_of_eq_false hu)

end Sys2Proof.Machine
end

section
/-! PROOFS. The block at rest (70_reset_and_hazards.md R212): in phase IDLE it waits for the host, after reset as after an operation. -/

namespace Sys2Proof.Machine

/-- In phase IDLE with nothing queued the step is the block's own, which leaves the state as it is (R119, R212). -/
theorem step_idle {s : State} (hp : s.phase = .idle) (hin : s.inputs = []) : step s = .next s :=
  (step_block hin).trans (blockStep_idle hp)

/-- Settles O42: an idle block with nothing queued waits, and the reset state is such a block. -/
theorem idleBlockWaits : Obligations.IdleBlockWaits :=
  ⟨fun _ hp hin => step_idle hp hin, step_idle rfl rfl⟩

end Sys2Proof.Machine
end
